-- ==== Sys2Proof/Word.lean ====
section
/-! DEFINITION. The widths of the machine (00_scope.md R6, R8): bytes, 16-bit words, nibbles, register indices. -/
namespace Sys2Proof

/-- 8 bits: one memory cell, one byte of an instruction (R6). -/
abbrev Byte := BitVec 8

/-- 16 bits: registers, `pc`, `sp`, addresses, immediates (R6, R8). -/
abbrev Word := BitVec 16

/-- 4 bits: "a 4-bit half of a byte" (R12). -/
abbrev Nibble := BitVec 4

/-- The index of a general register: always a nibble, so 0 to 15 and never out of range (R21). -/
abbrev RegIdx := Fin 16

end Sys2Proof
end

