-- ==== Sys2Proof/Machine/Bits.lean ====
section
/-! DEFINITION. Bit fields and byte order: the two halves of a byte and of a word (00_scope.md R8, 20_memory.md R58,
30_encoding.md R72). -/
namespace Sys2Proof.Machine

/-- Bits 7:4 of a byte. -/
def highNibble (b : Byte) : Nibble := b.extractLsb' 4 4

/-- Bits 3:0 of a byte. -/
def lowNibble (b : Byte) : Nibble := b.extractLsb' 0 4

/-- The byte with high half `h` and low half `l`. -/
def joinNibbles (h l : Nibble) : Byte := h ++ l

/-- Bits 15:8 of a word. -/
def highByte (w : Word) : Byte := w.extractLsb' 8 8

/-- Bits 7:0 of a word. -/
def lowByte (w : Word) : Byte := w.extractLsb' 0 8

/-- The word with low byte `lo` and high byte `hi`: `lo | (hi << 8)` (R55, R72). -/
def joinBytes (lo hi : Byte) : Word := hi ++ lo

/-- A nibble read as a register index (R21). -/
def toReg (n : Nibble) : RegIdx := n.toFin

/-- A register index as the nibble that encodes it. -/
def ofReg (r : RegIdx) : Nibble := BitVec.ofFin r

end Sys2Proof.Machine
end

