-- ==== Sys2Proof/Syntax.lean ====
section
/-! DEFINITION. The instruction set as syntax: the 73 forms of 30_encoding.md R78, and the formats of R74. -/
namespace Sys2Proof

/-- The condition codes of 40_conditions.md R101, in the order of their numbers 0 to 15.
`reserved` is code 15, which has no name and no formula (R103). -/
inductive Cond
  | z | nz | n | nn | p | o | no | a | ae | b | be | g | ge | l | le | reserved
  deriving DecidableEq, Repr

/-- The 13 formats of R74: which decoded fields a handler reads. -/
inductive Format
  | n | i | wh | n4 | hv | ai | ci | r | ri | rn | rr | rri | rrr
  deriving DecidableEq, Repr

/-- One instruction form with one operand shape and one opcode byte (R12 "Form"), by the labels of R83. -/
inductive Form
  | nop | cls | vblnk | bgc | spr | drw | drwR | rnd | flip | snd0
  | snd1 | snd2 | snd3 | snp | sng | jmp | jcc | jme | call | ret
  | jmpR | callcc | callR | ldi | ldiSp | ldm | ldmRr | stm | stmRr | addi
  | add | add3 | subi | sub | sub3 | cmpi | cmp | andi | and | and3
  | tsti | tst | ori | or | or3 | xori | xor | xor3 | muli | mul
  | mul3 | divi | div | div3 | modi | mod | mod3 | shl | shr | push
  | pop | pushall | popall | pushf | popf | pal | palR | noti | notR | notRr
  | negi | negR | negRr
  deriving DecidableEq, Repr

/-- All 73 forms, in the order of the opcode table (R78, R79). -/
def Form.all : List Form :=
  ([.nop, .cls, .vblnk, .bgc, .spr, .drw, .drwR, .rnd, .flip, .snd0, .snd1, .snd2] : List Form) ++
  ([.snd3, .snp, .sng, .jmp, .jcc, .jme, .call, .ret, .jmpR, .callcc, .callR, .ldi] : List Form) ++
  ([.ldiSp, .ldm, .ldmRr, .stm, .stmRr, .addi, .add, .add3, .subi, .sub, .sub3, .cmpi] : List Form) ++
  ([.cmp, .andi, .and, .and3, .tsti, .tst, .ori, .or, .or3, .xori, .xor, .xor3] : List Form) ++
  ([.muli, .mul, .mul3, .divi, .div, .div3, .modi, .mod, .mod3, .shl, .shr, .push] : List Form) ++
  ([.pop, .pushall, .popall, .pushf, .popf, .pal, .palR, .noti, .notR, .notRr, .negi, .negR] : List Form) ++
  ([.negRr] : List Form)

/-- The format column of R78. -/
def Form.format : Form → Format
  | .nop | .cls | .vblnk | .snd0 | .ret | .pushall | .popall | .pushf | .popf => .n
  | .snd1 | .snd2 | .snd3 | .jmp | .call | .ldiSp | .pal => .i
  | .spr => .wh
  | .bgc => .n4
  | .flip => .hv
  | .sng => .ai
  | .jcc | .callcc => .ci
  | .jmpR | .callR | .push | .pop | .palR | .notR | .negR => .r
  | .rnd | .snp | .ldi | .ldm | .stm | .addi | .subi | .cmpi | .andi | .tsti => .ri
  | .ori | .xori | .muli | .divi | .modi | .noti | .negi => .ri
  | .shl | .shr => .rn
  | .ldmRr | .stmRr | .add | .sub | .cmp | .and | .tst | .or | .xor | .mul => .rr
  | .div | .mod | .notRr | .negRr => .rr
  | .drw | .jme => .rri
  | .drwR | .add3 | .sub3 | .and3 | .or3 | .xor3 | .mul3 | .div3 | .mod3 => .rrr

/-- An instruction with its operands. `x`, `y`, `z` are register indices; `imm` and `target` are `hhll`;
`n` is `n4`; `width` and `height` are `ll` and `hh`; `h` and `v` are `hh[1]` and `hh[0]`; `ad` is `yx` and
`srvt` is `hhll` (R72, R74, R86). -/
inductive Instr
  /-- `NOP`: R255 -/
  | nop
  /-- `CLS`: R256 -/
  | cls
  /-- `VBLNK`: R257 -/
  | vblnk
  /-- `BGC N`: R258 -/
  | bgc (n : Nibble)
  /-- `SPR HHLL`: R259 -/
  | spr (width height : Byte)
  /-- `DRW HHLL,RX,RY`: R260 -/
  | drw (x y : RegIdx) (imm : Word)
  /-- `DRW RZ,RX,RY`: R261 -/
  | drwR (z x y : RegIdx)
  /-- `RND RX,HHLL`: R262 -/
  | rnd (x : RegIdx) (imm : Word)
  /-- `FLIP H,V`: R263 -/
  | flip (h v : Bool)
  /-- `SND0`: R264 -/
  | snd0
  /-- `SND1 HHLL`: R265 -/
  | snd1 (imm : Word)
  /-- `SND2 HHLL`: R266 -/
  | snd2 (imm : Word)
  /-- `SND3 HHLL`: R267 -/
  | snd3 (imm : Word)
  /-- `SNP RX,HHLL`: R268 -/
  | snp (x : RegIdx) (imm : Word)
  /-- `SNG AD,SR,VT`: R269 -/
  | sng (ad : Byte) (srvt : Word)
  /-- `JMP HHLL`: R131 -/
  | jmp (imm : Word)
  /-- `Jcc HHLL`: R132 -/
  | jcc (c : Cond) (target : Word)
  /-- `JME RX,RY,HHLL`: R133 -/
  | jme (x y : RegIdx) (imm : Word)
  /-- `CALL HHLL`: R134 -/
  | call (imm : Word)
  /-- `RET`: R135 -/
  | ret
  /-- `JMP RX`: R136 -/
  | jmpR (x : RegIdx)
  /-- `CALLcc HHLL`: R137 -/
  | callcc (c : Cond) (target : Word)
  /-- `CALL RX`: R138 -/
  | callR (x : RegIdx)
  /-- `LDI RX,HHLL`: R121 -/
  | ldi (x : RegIdx) (imm : Word)
  /-- `LDI SP,HHLL`: R122 -/
  | ldiSp (imm : Word)
  /-- `LDM RX,HHLL`: R123 -/
  | ldm (x : RegIdx) (imm : Word)
  /-- `LDM RX,RY`: R124 -/
  | ldmRr (x y : RegIdx)
  /-- `STM RX,HHLL`: R125 -/
  | stm (x : RegIdx) (imm : Word)
  /-- `STM RX,RY`: R126 -/
  | stmRr (x y : RegIdx)
  /-- `ADDI RX,HHLL`: R155 -/
  | addi (x : RegIdx) (imm : Word)
  /-- `ADD RX,RY`: R156 -/
  | add (x y : RegIdx)
  /-- `ADD RZ,RX,RY`: R157 -/
  | add3 (z x y : RegIdx)
  /-- `SUBI RX,HHLL`: R158 -/
  | subi (x : RegIdx) (imm : Word)
  /-- `SUB RX,RY`: R159 -/
  | sub (x y : RegIdx)
  /-- `SUB RZ,RX,RY`: R160 -/
  | sub3 (z x y : RegIdx)
  /-- `CMPI RX,HHLL`: R161 -/
  | cmpi (x : RegIdx) (imm : Word)
  /-- `CMP RX,RY`: R162 -/
  | cmp (x y : RegIdx)
  /-- `ANDI RX,HHLL`: R191 -/
  | andi (x : RegIdx) (imm : Word)
  /-- `AND RX,RY`: R192 -/
  | and (x y : RegIdx)
  /-- `AND RZ,RX,RY`: R193 -/
  | and3 (z x y : RegIdx)
  /-- `TSTI RX,HHLL`: R194 -/
  | tsti (x : RegIdx) (imm : Word)
  /-- `TST RX,RY`: R195 -/
  | tst (x y : RegIdx)
  /-- `ORI RX,HHLL`: R196 -/
  | ori (x : RegIdx) (imm : Word)
  /-- `OR RX,RY`: R197 -/
  | or (x y : RegIdx)
  /-- `OR RZ,RX,RY`: R198 -/
  | or3 (z x y : RegIdx)
  /-- `XORI RX,HHLL`: R199 -/
  | xori (x : RegIdx) (imm : Word)
  /-- `XOR RX,RY`: R200 -/
  | xor (x y : RegIdx)
  /-- `XOR RZ,RX,RY`: R201 -/
  | xor3 (z x y : RegIdx)
  /-- `MULI RX,HHLL`: R163 -/
  | muli (x : RegIdx) (imm : Word)
  /-- `MUL RX,RY`: R164 -/
  | mul (x y : RegIdx)
  /-- `MUL RZ,RX,RY`: R165 -/
  | mul3 (z x y : RegIdx)
  /-- `DIVI RX,HHLL`: R166 -/
  | divi (x : RegIdx) (imm : Word)
  /-- `DIV RX,RY`: R167 -/
  | div (x y : RegIdx)
  /-- `DIV RZ,RX,RY`: R168 -/
  | div3 (z x y : RegIdx)
  /-- `MODI RX,HHLL`: R169 -/
  | modi (x : RegIdx) (imm : Word)
  /-- `MOD RX,RY`: R170 -/
  | mod (x y : RegIdx)
  /-- `MOD RZ,RX,RY`: R171 -/
  | mod3 (z x y : RegIdx)
  /-- `SHL RX,N`: R211 -/
  | shl (x : RegIdx) (n : Nibble)
  /-- `SHR RX,N`: R212 -/
  | shr (x : RegIdx) (n : Nibble)
  /-- `PUSH RX`: R232 -/
  | push (x : RegIdx)
  /-- `POP RX`: R233 -/
  | pop (x : RegIdx)
  /-- `PUSHALL`: R234 -/
  | pushall
  /-- `POPALL`: R235 -/
  | popall
  /-- `PUSHF`: R238 -/
  | pushf
  /-- `POPF`: R239 -/
  | popf
  /-- `PAL HHLL`: R270 -/
  | pal (imm : Word)
  /-- `PAL RX`: R271 -/
  | palR (x : RegIdx)
  /-- `NOTI RX,HHLL`: R214 -/
  | noti (x : RegIdx) (imm : Word)
  /-- `NOT RX`: R215 -/
  | notR (x : RegIdx)
  /-- `NOT RX,RY`: R216 -/
  | notRr (x y : RegIdx)
  /-- `NEGI RX,HHLL`: R217 -/
  | negi (x : RegIdx) (imm : Word)
  /-- `NEG RX`: R218 -/
  | negR (x : RegIdx)
  /-- `NEG RX,RY`: R219 -/
  | negRr (x y : RegIdx)
  deriving DecidableEq, Repr

/-- The form an instruction is of. -/
def Instr.form : Instr → Form
  | .nop => .nop
  | .cls => .cls
  | .vblnk => .vblnk
  | .bgc _ => .bgc
  | .spr _ _ => .spr
  | .drw _ _ _ => .drw
  | .drwR _ _ _ => .drwR
  | .rnd _ _ => .rnd
  | .flip _ _ => .flip
  | .snd0 => .snd0
  | .snd1 _ => .snd1
  | .snd2 _ => .snd2
  | .snd3 _ => .snd3
  | .snp _ _ => .snp
  | .sng _ _ => .sng
  | .jmp _ => .jmp
  | .jcc _ _ => .jcc
  | .jme _ _ _ => .jme
  | .call _ => .call
  | .ret => .ret
  | .jmpR _ => .jmpR
  | .callcc _ _ => .callcc
  | .callR _ => .callR
  | .ldi _ _ => .ldi
  | .ldiSp _ => .ldiSp
  | .ldm _ _ => .ldm
  | .ldmRr _ _ => .ldmRr
  | .stm _ _ => .stm
  | .stmRr _ _ => .stmRr
  | .addi _ _ => .addi
  | .add _ _ => .add
  | .add3 _ _ _ => .add3
  | .subi _ _ => .subi
  | .sub _ _ => .sub
  | .sub3 _ _ _ => .sub3
  | .cmpi _ _ => .cmpi
  | .cmp _ _ => .cmp
  | .andi _ _ => .andi
  | .and _ _ => .and
  | .and3 _ _ _ => .and3
  | .tsti _ _ => .tsti
  | .tst _ _ => .tst
  | .ori _ _ => .ori
  | .or _ _ => .or
  | .or3 _ _ _ => .or3
  | .xori _ _ => .xori
  | .xor _ _ => .xor
  | .xor3 _ _ _ => .xor3
  | .muli _ _ => .muli
  | .mul _ _ => .mul
  | .mul3 _ _ _ => .mul3
  | .divi _ _ => .divi
  | .div _ _ => .div
  | .div3 _ _ _ => .div3
  | .modi _ _ => .modi
  | .mod _ _ => .mod
  | .mod3 _ _ _ => .mod3
  | .shl _ _ => .shl
  | .shr _ _ => .shr
  | .push _ => .push
  | .pop _ => .pop
  | .pushall => .pushall
  | .popall => .popall
  | .pushf => .pushf
  | .popf => .popf
  | .pal _ => .pal
  | .palR _ => .palR
  | .noti _ _ => .noti
  | .notR _ => .notR
  | .notRr _ _ => .notRr
  | .negi _ _ => .negi
  | .negR _ => .negR
  | .negRr _ _ => .negRr

end Sys2Proof
end

