-- ==== Sys2Proof/Config.lean ====
section
/-! DEFINITION. The parameters the document leaves open (00_scope.md R7) as one record, and the free values: what no
rule gives a value to. The values of the parameters stand in Sys2Proof/Machine/Params.lean. -/
namespace Sys2Proof

/-- `COND15`: what condition code 15 does (R7, R103, D3). -/
inductive Cond15
  /-- it raises `ReservedCondition` -/
  | fault
  /-- it never holds -/
  | never
  deriving DecidableEq, Repr

/-- `PUSHF_HIGH_BYTE`: what PUSHF writes at `sp + 1` (R7, R238, D7). -/
inductive PushfHigh
  /-- 0x00 -/
  | zero
  /-- nothing: the byte keeps its value -/
  | unchanged
  deriving DecidableEq, Repr

/-- `FLAG_BYTE_LAYOUT`: the bit of the packed flag byte that holds each flag (R7, R33, D8). -/
structure FlagLayout where
  c : Fin 8
  o : Fin 8
  n : Fin 8
  z : Fin 8
  deriving DecidableEq, Repr

/-- `TONE_HZ`: the tones of SND1, SND2, SND3 (R7, U24). -/
structure Tones where
  snd1 : Nat
  snd2 : Nat
  snd3 : Nat
  deriving DecidableEq, Repr

/-- The parameters of R7. -/
structure Config where
  /-- `OPCODE_MAP` (R77, D1) -/
  opcodeMap : Form → Byte
  /-- `STACK_ORIGIN` (R28, D2) -/
  stackOrigin : Word
  /-- `COND15` (R103, D3) -/
  cond15 : Cond15
  /-- `DIVMOD_SIGNED` (R153, D5) -/
  divmodSigned : Bool
  /-- `FLAG_BYTE_LAYOUT` (R33, D8) -/
  flagLayout : FlagLayout
  /-- `PUSHF_HIGH_BYTE` (R238, D7) -/
  pushfHighByte : PushfHigh
  /-- `CYCLE_WIDTH`: `none` is unbounded (R35, D13) -/
  cycleWidth : Option Nat
  /-- `INIT_MEM`: what every byte holds before the host writes its image (R52, D19) -/
  initByte : Byte
  /-- `TONE_HZ` (R265 to R267, U24) -/
  toneHz : Tones

/-- FREE VALUE: the k-th unlisted answer of `Gpu.vblank()` (R251, D18, U6). -/
opaque Config.freeVblank : Nat → Bool

/-- FREE VALUE: the k-th unlisted overlap answer of `Gpu.draw` (R251, U7). -/
opaque Config.freeOverlap : Nat → Bool

/-- FREE VALUE: the k-th unlisted draw of the RNG, before it is brought into the asked range (R253, D17, U5). -/
opaque Config.freeRandom : Nat → Word

/-- FREE VALUE: what `cycles` holds after a faulting step (R36, R295, U4). -/
opaque Config.freeCycles : Nat → Nat

end Sys2Proof
end

