-- ==== Sys2Proof/Machine/Params.lean ====
section
/-! DEFINITION. The values of the parameters of R7: the spec's defaults. A different numbering or value changes this
file and no rule (30_encoding.md R77). -/
namespace Sys2Proof.Machine

/-- The opcode bytes of R78 (PRESUMED by the spec itself: "from general knowledge, not in source", D1; log 1). -/
def opByte : Form → Byte
  | .nop => 0x00
  | .cls => 0x01
  | .vblnk => 0x02
  | .bgc => 0x03
  | .spr => 0x04
  | .drw => 0x05
  | .drwR => 0x06
  | .rnd => 0x07
  | .flip => 0x08
  | .snd0 => 0x09
  | .snd1 => 0x0A
  | .snd2 => 0x0B
  | .snd3 => 0x0C
  | .snp => 0x0D
  | .sng => 0x0E
  | .jmp => 0x10
  | .jcc => 0x12
  | .jme => 0x13
  | .call => 0x14
  | .ret => 0x15
  | .jmpR => 0x16
  | .callcc => 0x17
  | .callR => 0x18
  | .ldi => 0x20
  | .ldiSp => 0x21
  | .ldm => 0x22
  | .ldmRr => 0x23
  | .stm => 0x30
  | .stmRr => 0x31
  | .addi => 0x40
  | .add => 0x41
  | .add3 => 0x42
  | .subi => 0x50
  | .sub => 0x51
  | .sub3 => 0x52
  | .cmpi => 0x53
  | .cmp => 0x54
  | .andi => 0x60
  | .and => 0x61
  | .and3 => 0x62
  | .tsti => 0x63
  | .tst => 0x64
  | .ori => 0x70
  | .or => 0x71
  | .or3 => 0x72
  | .xori => 0x80
  | .xor => 0x81
  | .xor3 => 0x82
  | .muli => 0x90
  | .mul => 0x91
  | .mul3 => 0x92
  | .divi => 0xA0
  | .div => 0xA1
  | .div3 => 0xA2
  | .modi => 0xA3
  | .mod => 0xA4
  | .mod3 => 0xA5
  | .shl => 0xB0
  | .shr => 0xB1
  | .push => 0xC0
  | .pop => 0xC1
  | .pushall => 0xC2
  | .popall => 0xC3
  | .pushf => 0xC4
  | .popf => 0xC5
  | .pal => 0xD0
  | .palR => 0xD1
  | .noti => 0xE0
  | .notR => 0xE1
  | .notRr => 0xE2
  | .negi => 0xE3
  | .negR => 0xE4
  | .negRr => 0xE5

/-- The flag byte of R33: bit 7 carry, bit 6 overflow, bit 1 negative, bit 0 zero (UNVERIFIED for carry and negative:
the document calls them an open question, D8; log 8). -/
def flagLayout : FlagLayout := { c := 7, o := 6, n := 1, z := 0 }

/-- The defaults of R7 (D1, D2, D3, D5, D7, D8, D13, D19; logs 1 to 8, 13, 18, 28). -/
def params : Config where
  opcodeMap := opByte
  stackOrigin := 0xFDF0
  cond15 := .fault
  divmodSigned := false
  flagLayout := flagLayout
  pushfHighByte := .zero
  cycleWidth := none
  initByte := 0x00
  toneHz := { snd1 := 500, snd2 := 1000, snd3 := 1500 }

end Sys2Proof.Machine
end

