-- ==== Sys2Proof/Machine/State.lean ====
section
/-! DEFINITION. The whole state of the machine as plain data (10_state.md section 1 to 7), the memory and its canonical
form (20_memory.md R50 to R52), the port calls (47_peripheral.md R250 to R253), the faults (60_exceptions.md R290) and
the state after reset (70_reset_and_hazards.md R320). -/
namespace Sys2Proof.Machine

/-- A call on a peripheral port, with its arguments (R251, R252, R253). -/
inductive PortCall
  /-- `Gpu.clear_fg()` -/
  | gpuClearFg
  /-- `Gpu.clear_bg()` -/
  | gpuClearBg
  /-- `Gpu.vblank()` -/
  | gpuVblank
  /-- `Gpu.bg <- v` -/
  | gpuBg (v : Nibble)
  /-- `Gpu.spritew <- v` -/
  | gpuSpriteW (v : Byte)
  /-- `Gpu.spriteh <- v` -/
  | gpuSpriteH (v : Byte)
  /-- `Gpu.hflip <- b` -/
  | gpuHflip (b : Bool)
  /-- `Gpu.vflip <- b` -/
  | gpuVflip (b : Bool)
  /-- `Gpu.draw(addr, px, py)`: `addr` is the final sprite address (R251, D16) -/
  | gpuDraw (addr px py : Word)
  /-- `Gpu.palette[k] <- (r/255, g/255, b/255)`: the three bytes read (R272, U9) -/
  | gpuPalette (k : Fin 16) (r g b : Byte)
  /-- `Spu.stop()` -/
  | spuStop
  /-- `Spu.play_500hz`, `Spu.play_1000hz`, `Spu.play_1500hz`: a fixed tone of `hz` for `durationMs` (R252, U24) -/
  | spuPlayFixed (hz : Nat) (durationMs : Word)
  /-- `Spu.play_tone(frequency, duration_ms)` -/
  | spuPlayTone (frequency durationMs : Word)
  /-- `Spu.setup(attack_decay_byte, sustain_release_volume)` -/
  | spuSetup (attackDecay : Byte) (sustainReleaseVolume : Word)
  /-- `Rng.next_in_range(max_inclusive)` -/
  | rngNextInRange (maxInclusive : Word)
  deriving DecidableEq, Repr

/-- A peripheral's own error, as a token the core passes through and never interprets (R254, R293). -/
abbrev PeripheralError := Nat

/-- Why a step ends without a next state: the complete list of R290, with what each records. -/
inductive Fault
  /-- raised by `step` at dispatch when byte 0 has no handler (R291); the spec's own fault: safe -/
  | invalidOpcode (pc : Word) (op : Byte)
  /-- raised by the DIV and MOD forms when the divisor is 0 (R292); the spec's own fault: safe -/
  | divisionByZero (pc : Word)
  /-- raised by a peripheral opcode when a port call fails (R293); `reached` are the earlier calls of the same step,
  which "have already reached the peripheral and are not undone"; the spec's own fault: safe -/
  | peripheralFailure (pc : Word) (error : PeripheralError) (reached : List PortCall)
  /-- raised by Jcc and CALLcc on condition code 15 (R294, D3); the spec's own fault: safe -/
  | reservedCondition (pc : Word)
  deriving DecidableEq, Repr

/-- Why a step request has no meaning. -/
inductive Refusal
  /-- raised by `exec` for an instruction without a meaning; safe -/
  | notModelled (mnemonic : String)
  /-- raised by `step` when the fault latch holds `f`: "the core executes no further instruction and no rule gives any
  other state a value" (R36, R295, U4); safe -/
  | coreFaulted (f : Fault)
  deriving DecidableEq, Repr

/-- The four flags (R30). -/
structure Flags where
  c : Bool
  z : Bool
  o : Bool
  n : Bool
  deriving DecidableEq, Repr

/-- The flat byte memory of R50 as a list of (address, byte) pairs. An address that is not listed reads as
`params.initByte` (R52). -/
abbrev Memory := List Host.Cell

/-- The canonical form: addresses inside the 64 KiB and strictly rising, and no entry equal to what an unlisted address
reads as, so that equal memories are equal lists. -/
def Memory.wf : Memory → Bool
  | [] => true
  | (k, v) :: rest =>
    decide (k < 65536) && v != params.initByte && rest.all (fun c => decide (k < c.1)) && Memory.wf rest

/-- The environment behind the ports, as plain data: what the peripherals will answer (the MODEL's own fields; R250,
R254, D14, D17, D18, D21; logs 14, 15, 24). Each list is oldest first. -/
structure PortInputs where
  /-- outcomes of the coming port calls: `some e` is a call that fails with `e`; past the end no call fails -/
  outcomes : List (Option PeripheralError)
  /-- coming answers of `Gpu.vblank()`; past the end the answers are free values -/
  vblank : List Bool
  /-- coming overlap answers of `Gpu.draw`; past the end the answers are free values -/
  overlap : List Bool
  /-- coming answers of `Rng.next_in_range`; past the end the answers are free values -/
  random : List Word
  /-- how many free values have been used -/
  draws : Nat
  deriving DecidableEq, Repr

/-- The whole state. -/
structure State where
  /-- `x[0]` to `x[15]` (R20) -/
  regs : Vector Word 16
  /-- the program counter (R24) -/
  pc : Word
  /-- the stack pointer (R28) -/
  sp : Word
  /-- `C`, `Z`, `O`, `N` (R30) -/
  flags : Flags
  /-- the cycle counter (R35) -/
  cycles : Nat
  /-- the fault latch (R36) -/
  fault : Option Fault
  /-- the 65,536 bytes (R50) -/
  mem : Memory
  /-- the model's own field: what the ports will answer (log 14, log 15) -/
  inputs : PortInputs
  /-- the model's own field: the port calls made, oldest first (R250, R328, U25; log 16) -/
  portLog : List PortCall
  deriving DecidableEq, Repr

/-- The machine right after reset (R320 and the table of 10_state.md section 7). -/
def State.reset : State where
  regs := Vector.replicate 16 0
  pc := 0
  sp := params.stackOrigin
  flags := { c := false, z := false, o := false, n := false }
  cycles := 0
  fault := none
  mem := []
  inputs := { outcomes := [], vblank := [], overlap := [], random := [], draws := 0 }
  portLog := []

end Sys2Proof.Machine
end

