-- ==== Sys2Proof/Machine/Ops.lean ====
section
/-! DEFINITION. The named operations over registers, memory, stack, ports and faults that every meaning is built from
(00_scope.md R9, 20_memory.md R53 to R57, 46_stack.md R231, 47_peripheral.md R250 to R254, 60_exceptions.md R295). -/
namespace Sys2Proof.Machine

/-- What a step or a meaning answers. -/
abbrev Result := Host.Outcome State Fault Refusal

/-- Go on with `k` from the state a result gives; a fault or a refusal ends the step (R295). -/
def Result.andThen (r : Result) (k : State → Result) : Result :=
  match r with
  | .next s => k s
  | .fault f => .fault f
  | .refused e => .refused e

/-! ## Memory -/

/-- The byte at a key. -/
def Memory.get : Memory → Nat → Byte
  | [], _ => params.initByte
  | (a, v) :: rest, k => if a = k then v else Memory.get rest k

/-- Put an entry where the order of the keys wants it. -/
def Memory.insert : Memory → Nat → Byte → Memory
  | [], k, v => [(k, v)]
  | c :: rest, k, v => if k < c.1 then (k, v) :: c :: rest else c :: Memory.insert rest k v

/-- Write a byte, keeping the canonical form. -/
def Memory.set (m : Memory) (k : Nat) (v : Byte) : Memory :=
  let others := m.filter fun c => c.1 != k
  if v = params.initByte then others else Memory.insert others k v

/-- `MemRead(addr, 1)` (R53). -/
def Memory.read8 (m : Memory) (a : Word) : Byte := Memory.get m a.toNat

/-- `MemWrite(addr, 1, v)` (R54). -/
def Memory.write8 (m : Memory) (a : Word) (v : Byte) : Memory := Memory.set m a.toNat v

/-- `MemRead(addr, 2)`: little-endian, and the second address wraps (R55, R58, D12). -/
def Memory.read16 (m : Memory) (a : Word) : Word := joinBytes (Memory.read8 m a) (Memory.read8 m (a + 1))

/-- `MemWrite(addr, 2, v)`: the low byte first, and the second address wraps (R56, R58, D12). -/
def Memory.write16 (m : Memory) (a : Word) (v : Word) : Memory :=
  Memory.write8 (Memory.write8 m a (lowByte v)) (a + 1) (highByte v)

/-- `MemRead(a, 1)` in a state. -/
def State.read8 (s : State) (a : Word) : Byte := s.mem.read8 a

/-- `MemRead(a, 2)` in a state. -/
def State.read16 (s : State) (a : Word) : Word := s.mem.read16 a

/-- `MemWrite(a, 1, v)` in a state. -/
def State.write8 (s : State) (a : Word) (v : Byte) : State := { s with mem := s.mem.write8 a v }

/-- `MemWrite(a, 2, v)` in a state. -/
def State.write16 (s : State) (a : Word) (v : Word) : State := { s with mem := s.mem.write16 a v }

/-! ## Registers, `sp`, flags, program counter -/

/-- `x[i]` (R9, R21). -/
def State.reg (s : State) (i : RegIdx) : Word := s.regs[i.val]

/-- `x[i] <- v` (R9, R21). -/
def State.setReg (s : State) (i : RegIdx) (v : Word) : State := { s with regs := s.regs.set i.val v }

/-- `sp <- v` (R28). -/
def State.setSp (s : State) (v : Word) : State := { s with sp := v }

/-- All four flags at once (R30). -/
def State.setFlags (s : State) (f : Flags) : State := { s with flags := f }

/-- `C <- b`, the other flags unchanged. -/
def State.setCarry (s : State) (b : Bool) : State := { s with flags := { s.flags with c := b } }

/-- `next_pc` left at its preset: the step ends with `pc = trunc16(pc + 4)` (R9, R25, R26). -/
def State.advance (s : State) : State := { s with pc := s.pc + 4 }

/-- `pc <- target`: the step ends with `pc = target`, also when that is the old `pc` (R9, R25, D11). -/
def State.jump (s : State) (target : Word) : State := { s with pc := target }

/-- One more completed step (R35, R325 step 7): modulo `2^w` where `CYCLE_WIDTH` is `w`. -/
def State.countCycle (s : State) : State :=
  { s with cycles := match params.cycleWidth with
    | none => s.cycles + 1
    | some w => (s.cycles + 1) % 2 ^ w }

/-! ## Stack (R230, R231) -/

/-- `push16(v)`: store at `sp`, then add 2. -/
def State.push16 (s : State) (v : Word) : State := (s.write16 s.sp v).setSp (s.sp + 2)

/-- The word `pop16()` returns: the one at `sp - 2`. -/
def State.popped (s : State) : Word := s.read16 (s.sp - 2)

/-- The state `pop16()` leaves: `sp` less 2, memory as it was. -/
def State.dropSlot (s : State) : State := s.setSp (s.sp - 2)

/-- The registers in the order PUSHALL and POPALL take them (R234, R235). -/
def allRegs : List RegIdx := [0, 1, 2, 3, 4, 5, 6, 7, 8, 9, 10, 11, 12, 13, 14, 15]

/-- The slot of register `i` in a saved block that starts at `base`: `base + 2*i` (R234, R235). -/
def slotOf (base : Word) (i : RegIdx) : Word := base + BitVec.ofNat 16 (2 * i.val)

/-- Store the listed registers in their slots, in order (R234). -/
def State.storeRegs (s : State) (base : Word) : List RegIdx → State
  | [] => s
  | i :: rest => State.storeRegs (s.write16 (slotOf base i) (s.reg i)) base rest

/-- Load the listed registers from their slots, in order (R235). -/
def State.loadRegs (s : State) (base : Word) : List RegIdx → State
  | [] => s
  | i :: rest => State.loadRegs (s.setReg i (s.read16 (slotOf base i))) base rest

/-! ## Ports (R250 to R254) -/

/-- A port call that succeeded: its outcome is used up and the call is on record (R250, R328). -/
def State.recordCall (s : State) (c : PortCall) : State :=
  { s with inputs := { s.inputs with outcomes := s.inputs.outcomes.tail }, portLog := s.portLog ++ [c] }

/-- The error the next port call ends with, if it fails (R254). -/
def State.nextError (s : State) : Option PeripheralError := s.inputs.outcomes.head?.join

/-- Make port calls in order; the first that fails ends the step with the calls that reached their peripheral before it
(R293). `reached` are the calls of this step already made. -/
def callPortsFrom (reached : List PortCall) : List PortCall → State → Result
  | [], s => .next s
  | c :: rest, s =>
    match s.nextError with
    | some e => .fault (.peripheralFailure s.pc e reached)
    | none => callPortsFrom (reached ++ [c]) rest (s.recordCall c)

/-- The port calls of one instruction (R250, R254, R293). -/
def callPorts (calls : List PortCall) (s : State) : Result := callPortsFrom [] calls s

/-- The answer of `Gpu.vblank()` (R251): the next listed one, else a free value. -/
def State.vblankAnswer (s : State) : Bool :=
  match s.inputs.vblank with
  | b :: _ => b
  | [] => Config.freeVblank s.inputs.draws

/-- The overlap answer of `Gpu.draw` (R251): the next listed one, else a free value. -/
def State.overlapAnswer (s : State) : Bool :=
  match s.inputs.overlap with
  | b :: _ => b
  | [] => Config.freeOverlap s.inputs.draws

/-- Bring a draw into `[0, max]`: a value of the range is kept, and no other value is ever drawn (R253; log 24). -/
def intoRange (v max : Word) : Word := BitVec.ofNat 16 (v.toNat % (max.toNat + 1))

/-- The answer of `Rng.next_in_range(max)` (R253): the next listed one, else a free value, inside `[0, max]`. -/
def State.randomAnswer (s : State) (max : Word) : Word :=
  match s.inputs.random with
  | v :: _ => intoRange v max
  | [] => intoRange (Config.freeRandom s.inputs.draws) max

/-- The state after an answer of `Gpu.vblank()` was taken. -/
def State.takeVblank (s : State) : State :=
  match s.inputs.vblank with
  | _ :: rest => { s with inputs := { s.inputs with vblank := rest } }
  | [] => { s with inputs := { s.inputs with draws := s.inputs.draws + 1 } }

/-- The state after an overlap answer was taken. -/
def State.takeOverlap (s : State) : State :=
  match s.inputs.overlap with
  | _ :: rest => { s with inputs := { s.inputs with overlap := rest } }
  | [] => { s with inputs := { s.inputs with draws := s.inputs.draws + 1 } }

/-- The state after an answer of the RNG was taken. -/
def State.takeRandom (s : State) : State :=
  match s.inputs.random with
  | _ :: rest => { s with inputs := { s.inputs with random := rest } }
  | [] => { s with inputs := { s.inputs with draws := s.inputs.draws + 1 } }

/-! ## Faults -/

/-- `raise f`: the step ends with the fault, and no state is written (R9, R295). -/
def raise (f : Fault) : Result := .fault f

/-- The numeric code of a fault (R290, D23). -/
def Fault.code : Fault → Nat
  | .invalidOpcode _ _ => 1
  | .divisionByZero _ => 2
  | .peripheralFailure _ _ _ => 3
  | .reservedCondition _ => 4

/-- The status output: 0 is no fault (R290, R295). -/
def State.status (s : State) : Nat :=
  match s.fault with
  | none => 0
  | some f => f.code

/-- The port calls of the faulting step that reached their peripheral (R293). -/
def Fault.reachedCalls : Fault → List PortCall
  | .peripheralFailure _ _ reached => reached
  | .invalidOpcode _ _ | .divisionByZero _ | .reservedCondition _ => []

/-- The terminal state after a faulting step (R36, R295): the latch holds the fault, `cycles` is undefined (a free
value), the calls that reached a peripheral stay made, and nothing else changes. -/
def State.latch (s : State) (f : Fault) : State :=
  { s with
    fault := some f
    cycles := Config.freeCycles s.inputs.draws
    portLog := s.portLog ++ f.reachedCalls }

end Sys2Proof.Machine
end

