-- ==== Sys2Proof/Machine/Flags.lean ====
section
/-! DEFINITION. The ALU functions with their flags (43_arithmetic.md R150 to R154, 44_logic.md R190, 45_shift_unary.md
R210, R213), the condition evaluator (40_conditions.md R100 to R103) and the packed flag byte (10_state.md R33). Each
ALU function takes the flags as they stand and returns the result with the flags after it. -/
namespace Sys2Proof.Machine

/-- `setZN(r)` (R10): `C` and `O` unchanged. -/
def Flags.setZN (f : Flags) (r : Word) : Flags := { f with z := r == 0, n := r.msb }

/-- `add16(a, b)` (R150). -/
def add16 (a b : Word) (_ : Flags) : Word × Flags :=
  let s := a.toNat + b.toNat
  let r := BitVec.ofNat 16 s
  (r, { c := decide (s > 0xFFFF)
        o := a.msb == b.msb && r.msb != a.msb
        z := r == 0
        n := r.msb })

/-- `sub16(a, b)` (R151): `C` is "no borrow". -/
def sub16 (a b : Word) (_ : Flags) : Word × Flags :=
  let r := BitVec.ofInt 16 ((a.toNat : Int) - (b.toNat : Int))
  (r, { c := decide (a.toNat ≥ b.toNat)
        o := a.msb != b.msb && r.msb != a.msb
        z := r == 0
        n := r.msb })

/-- `mul16(a, b)` (R152): `N` is bit 31 of the unsigned product; `O` unchanged. -/
def mul16 (a b : Word) (f : Flags) : Word × Flags :=
  let p := a.toNat * b.toNat
  let r := BitVec.ofNat 16 p
  let u := BitVec.ofNat 16 (p / 65536)
  (r, { f with c := u != 0, z := r == 0, n := u.msb })

/-- Quotient and remainder by a non-zero divisor. Unsigned floor division is R153's reading; the alternative value of
`DIVMOD_SIGNED` rounds toward zero (D5; PRESUMED, log 5; not taken by the default). -/
def quotRem (a b : Word) : Word × Word :=
  match params.divmodSigned with
  | false =>
    let q := a.toNat / b.toNat
    (BitVec.ofNat 16 q, BitVec.ofNat 16 (a.toNat - q * b.toNat))
  | true => (a.sdiv b, a.srem b)

/-- `div16(a, b)` (R153): `none` where it raises `DivisionByZero`; `C` is "non-zero remainder"; `O` unchanged. -/
def div16 (a b : Word) (f : Flags) : Option (Word × Flags) :=
  if b = 0 then none
  else
    let qm := quotRem a b
    some (qm.1, { f with c := qm.2 != 0, z := qm.1 == 0, n := qm.1.msb })

/-- `mod16(a, b)` (R154): `none` where it raises `DivisionByZero`; `O` unchanged. -/
def mod16 (a b : Word) (f : Flags) : Option (Word × Flags) :=
  if b = 0 then none
  else
    let qm := quotRem a b
    some (qm.2, { f with c := qm.2 != 0, z := qm.2 == 0, n := qm.2.msb })

/-- `logic16(&, a, b)` (R190). -/
def and16 (a b : Word) (f : Flags) : Word × Flags := (a &&& b, f.setZN (a &&& b))

/-- `logic16(|, a, b)` (R190). -/
def or16 (a b : Word) (f : Flags) : Word × Flags := (a ||| b, f.setZN (a ||| b))

/-- `logic16(^, a, b)` (R190). -/
def xor16 (a b : Word) (f : Flags) : Word × Flags := (a ^^^ b, f.setZN (a ^^^ b))

/-- `trunc16(a << n)` (R210, R211): the bits shifted out are lost. -/
def shl16 (a : Word) (n : Nibble) (f : Flags) : Word × Flags := (a <<< n.toNat, f.setZN (a <<< n.toNat))

/-- `a >> n`, logical (R210, R212). -/
def shr16 (a : Word) (n : Nibble) (f : Flags) : Word × Flags := (a >>> n.toNat, f.setZN (a >>> n.toNat))

/-- `not16(v) = v ^ 0xFFFF` (R213). -/
def not16 (v : Word) (f : Flags) : Word × Flags := (v ^^^ 0xFFFF, f.setZN (v ^^^ 0xFFFF))

/-- `neg16(v) = trunc16(0 - v)` (R213). -/
def neg16 (v : Word) (f : Flags) : Word × Flags := (0 - v, f.setZN (0 - v))

/-- The condition evaluator `cond(c)` (R100, R101, R102): `none` is where it raises `ReservedCondition` (R103). -/
def evalCond (c : Cond) (f : Flags) : Option Bool :=
  match c with
  | .z => some f.z
  | .nz => some (!f.z)
  | .n => some f.n
  | .nn => some (!f.n)
  | .p => some (!f.n && !f.z)
  | .o => some f.o
  | .no => some (!f.o)
  | .a => some (f.c && !f.z)
  | .ae => some (f.c || f.z)
  | .b => some (!f.c)
  | .be => some (!f.c || f.z)
  | .g => some (f.o == f.n && !f.z)
  | .ge => some (f.o == f.n)
  | .l => some (f.o != f.n)
  | .le => some (f.o != f.n || f.z)
  | .reserved =>
    match params.cond15 with
    | .fault => none
    | .never => some false

/-- A flag at its bit of the packed byte. -/
def flagBit (b : Bool) (position : Fin 8) : Byte := if b then 1 <<< position.val else 0

/-- `packflags()` (R33, R238): unused bits are 0. -/
def packFlags (f : Flags) : Byte :=
  flagBit f.c params.flagLayout.c ||| flagBit f.o params.flagLayout.o |||
    flagBit f.n params.flagLayout.n ||| flagBit f.z params.flagLayout.z

/-- The flags POPF takes from the word it read (R239): every other bit of the word is ignored. -/
def unpackFlags (w : Word) : Flags where
  c := w.getLsbD params.flagLayout.c.val
  z := w.getLsbD params.flagLayout.z.val
  o := w.getLsbD params.flagLayout.o.val
  n := w.getLsbD params.flagLayout.n.val

end Sys2Proof.Machine
end

