-- ==== Sys2Proof/Machine/Operands.lean ====
section
/-! DEFINITION. The operand forms: second operands (43_arithmetic.md section 1), the address forms of loads, stores and
ports (41_data_movement.md, 47_peripheral.md R261, R268, R271), and the shapes an ALU instruction has. -/
namespace Sys2Proof.Machine

/-- The second operand of an ALU instruction: the immediate `hhll` or a register. -/
inductive Source
  | imm (v : Word)
  | reg (i : RegIdx)
  deriving DecidableEq, Repr

/-- The operand's value, read before anything is written (R172 (g), R326). -/
def Source.value (o : Source) (s : State) : Word :=
  match o with
  | .imm v => v
  | .reg i => s.reg i

/-- The address forms: absolute (`HHLL`), held in a register (`RY`, `PAL RX`), or held in the word a register points at
(the sprite address of `DRW RZ,RX,RY`). -/
inductive Address
  | abs (a : Word)
  | inReg (i : RegIdx)
  | atReg (i : RegIdx)
  deriving DecidableEq, Repr

/-- The address an address form gives in a state (R75, R124, R126, R261, R271). -/
def Address.value (o : Address) (s : State) : Word :=
  match o with
  | .abs a => a
  | .inReg i => s.reg i
  | .atReg i => s.read16 (s.reg i)

/-- Write an ALU result and its flags and advance. -/
def State.aluWrite (s : State) (d : RegIdx) (r : Word × Flags) : State := ((s.setReg d r.1).setFlags r.2).advance

/-- Keep an ALU result's flags only, and advance (CMP, TST: "discard"). -/
def State.aluDiscard (s : State) (r : Word × Flags) : State := (s.setFlags r.2).advance

/-- `x[d] <- f(x[x], source)` with its flags. -/
def aluBinary (f : Word → Word → Flags → Word × Flags) (d x : RegIdx) (b : Source) (s : State) : Result :=
  .next (s.aluWrite d (f (s.reg x) (b.value s) s.flags))

/-- `f(x[x], source)` for its flags alone. -/
def aluCompare (f : Word → Word → Flags → Word × Flags) (x : RegIdx) (b : Source) (s : State) : Result :=
  .next (s.aluDiscard (f (s.reg x) (b.value s) s.flags))

/-- `x[d] <- f(x[x], source)` where `f` raises `DivisionByZero` before any write (R153, R154, R292). -/
def aluDivide (f : Word → Word → Flags → Option (Word × Flags)) (d x : RegIdx) (b : Source) (s : State) : Result :=
  match f (s.reg x) (b.value s) s.flags with
  | none => raise (.divisionByZero s.pc)
  | some r => .next (s.aluWrite d r)

/-- `x[d] <- f(source)` with its flags. -/
def aluUnary (f : Word → Flags → Word × Flags) (d : RegIdx) (b : Source) (s : State) : Result :=
  .next (s.aluWrite d (f (b.value s) s.flags))

/-- `x[x] <- f(x[x], n4)` with its flags. -/
def aluShift (f : Word → Nibble → Flags → Word × Flags) (x : RegIdx) (n : Nibble) (s : State) : Result :=
  .next (s.aluWrite x (f (s.reg x) n s.flags))

end Sys2Proof.Machine
end

