-- ==== Sys2Proof/Machine/Arithmetic.lean ====
section
/-! DEFINITION. Arithmetic (43_arithmetic.md R150 to R172): ADD, SUB, CMP, MUL, DIV, MOD. -/
namespace Sys2Proof.Machine

/-- ADDI RX,HHLL (R155). -/
def execAddi (x : RegIdx) (imm : Word) (s : State) : Result := aluBinary add16 x x (.imm imm) s

/-- ADD RX,RY (R156). -/
def execAdd (x y : RegIdx) (s : State) : Result := aluBinary add16 x x (.reg y) s

/-- ADD RZ,RX,RY (R157). -/
def execAdd3 (z x y : RegIdx) (s : State) : Result := aluBinary add16 z x (.reg y) s

/-- SUBI RX,HHLL (R158). -/
def execSubi (x : RegIdx) (imm : Word) (s : State) : Result := aluBinary sub16 x x (.imm imm) s

/-- SUB RX,RY (R159). -/
def execSub (x y : RegIdx) (s : State) : Result := aluBinary sub16 x x (.reg y) s

/-- SUB RZ,RX,RY (R160). -/
def execSub3 (z x y : RegIdx) (s : State) : Result := aluBinary sub16 z x (.reg y) s

/-- CMPI RX,HHLL (R161). -/
def execCmpi (x : RegIdx) (imm : Word) (s : State) : Result := aluCompare sub16 x (.imm imm) s

/-- CMP RX,RY (R162). -/
def execCmp (x y : RegIdx) (s : State) : Result := aluCompare sub16 x (.reg y) s

/-- MULI RX,HHLL (R163). -/
def execMuli (x : RegIdx) (imm : Word) (s : State) : Result := aluBinary mul16 x x (.imm imm) s

/-- MUL RX,RY (R164). -/
def execMul (x y : RegIdx) (s : State) : Result := aluBinary mul16 x x (.reg y) s

/-- MUL RZ,RX,RY (R165). -/
def execMul3 (z x y : RegIdx) (s : State) : Result := aluBinary mul16 z x (.reg y) s

/-- DIVI RX,HHLL (R166). -/
def execDivi (x : RegIdx) (imm : Word) (s : State) : Result := aluDivide div16 x x (.imm imm) s

/-- DIV RX,RY (R167). -/
def execDiv (x y : RegIdx) (s : State) : Result := aluDivide div16 x x (.reg y) s

/-- DIV RZ,RX,RY (R168). -/
def execDiv3 (z x y : RegIdx) (s : State) : Result := aluDivide div16 z x (.reg y) s

/-- MODI RX,HHLL (R169). -/
def execModi (x : RegIdx) (imm : Word) (s : State) : Result := aluDivide mod16 x x (.imm imm) s

/-- MOD RX,RY (R170). -/
def execMod (x y : RegIdx) (s : State) : Result := aluDivide mod16 x x (.reg y) s

/-- MOD RZ,RX,RY (R171). -/
def execMod3 (z x y : RegIdx) (s : State) : Result := aluDivide mod16 z x (.reg y) s

end Sys2Proof.Machine
end

