-- ==== Sys2Proof/Machine/ControlFlow.lean ====
section
/-! DEFINITION. Control flow (42_control_flow.md R130 to R139): no flag and no register is written; targets are absolute
and any value is legal; the return address is `trunc16(pc + 4)` on the memory stack. -/
namespace Sys2Proof.Machine

/-- Push the return address and go to the target (R134, R137, R138). -/
def State.callTo (s : State) (target : Word) : State := (s.push16 (s.pc + 4)).jump target

/-- Take `go` if the condition holds, else advance; code 15 faults before any write (R100, R103, R132, R137). -/
def whenCond (c : Cond) (s : State) (go : State) : Result :=
  match evalCond c s.flags with
  | none => raise (.reservedCondition s.pc)
  | some true => .next go
  | some false => .next s.advance

/-- JMP HHLL (R131). -/
def execJmp (imm : Word) (s : State) : Result := .next (s.jump imm)

/-- Jcc HHLL (R132). -/
def execJcc (c : Cond) (target : Word) (s : State) : Result := whenCond c s (s.jump target)

/-- JME RX,RY,HHLL (R133): all 16 bits are compared and no flag is touched. -/
def execJme (x y : RegIdx) (imm : Word) (s : State) : Result :=
  .next (if s.reg x = s.reg y then s.jump imm else s.advance)

/-- CALL HHLL (R134). -/
def execCall (imm : Word) (s : State) : Result := .next (s.callTo imm)

/-- RET (R135). -/
def execRet (s : State) : Result := .next (s.dropSlot.jump s.popped)

/-- JMP RX (R136). -/
def execJmpR (x : RegIdx) (s : State) : Result := .next (s.jump (s.reg x))

/-- CALLcc HHLL (R137). -/
def execCallcc (c : Cond) (target : Word) (s : State) : Result := whenCond c s (s.callTo target)

/-- CALL RX (R138). -/
def execCallR (x : RegIdx) (s : State) : Result := .next (s.callTo (s.reg x))

end Sys2Proof.Machine
end

