-- ==== Sys2Proof/Machine/DataMovement.lean ====
section
/-! DEFINITION. Data movement (41_data_movement.md R120 to R126): no flag effect, no fault, `pc` advances by 4. -/
namespace Sys2Proof.Machine

/-- `x[x] <- MemRead(address, 2)`: the address is read before the register is overwritten (R124). -/
def loadWord (x : RegIdx) (a : Address) (s : State) : Result := .next (s.setReg x (s.read16 (a.value s))).advance

/-- `MemWrite(address, 2, x[x])`. -/
def storeWord (x : RegIdx) (a : Address) (s : State) : Result := .next (s.write16 (a.value s) (s.reg x)).advance

/-- LDI RX,HHLL (R121). -/
def execLdi (x : RegIdx) (imm : Word) (s : State) : Result := .next (s.setReg x imm).advance

/-- LDI SP,HHLL (R122). -/
def execLdiSp (imm : Word) (s : State) : Result := .next (s.setSp imm).advance

/-- LDM RX,HHLL (R123). -/
def execLdm (x : RegIdx) (imm : Word) (s : State) : Result := loadWord x (.abs imm) s

/-- LDM RX,RY (R124). -/
def execLdmRr (x y : RegIdx) (s : State) : Result := loadWord x (.inReg y) s

/-- STM RX,HHLL (R125). -/
def execStm (x : RegIdx) (imm : Word) (s : State) : Result := storeWord x (.abs imm) s

/-- STM RX,RY (R126). -/
def execStmRr (x y : RegIdx) (s : State) : Result := storeWord x (.inReg y) s

end Sys2Proof.Machine
end

