-- ==== Sys2Proof/Machine/Logic.lean ====
section
/-! DEFINITION. Logic (44_logic.md R190 to R201): AND, TST, OR, XOR; `C` and `O` unchanged. -/
namespace Sys2Proof.Machine

/-- ANDI RX,HHLL (R191). -/
def execAndi (x : RegIdx) (imm : Word) (s : State) : Result := aluBinary and16 x x (.imm imm) s

/-- AND RX,RY (R192). -/
def execAnd (x y : RegIdx) (s : State) : Result := aluBinary and16 x x (.reg y) s

/-- AND RZ,RX,RY (R193). -/
def execAnd3 (z x y : RegIdx) (s : State) : Result := aluBinary and16 z x (.reg y) s

/-- TSTI RX,HHLL (R194). -/
def execTsti (x : RegIdx) (imm : Word) (s : State) : Result := aluCompare and16 x (.imm imm) s

/-- TST RX,RY (R195). -/
def execTst (x y : RegIdx) (s : State) : Result := aluCompare and16 x (.reg y) s

/-- ORI RX,HHLL (R196). -/
def execOri (x : RegIdx) (imm : Word) (s : State) : Result := aluBinary or16 x x (.imm imm) s

/-- OR RX,RY (R197). -/
def execOr (x y : RegIdx) (s : State) : Result := aluBinary or16 x x (.reg y) s

/-- OR RZ,RX,RY (R198). -/
def execOr3 (z x y : RegIdx) (s : State) : Result := aluBinary or16 z x (.reg y) s

/-- XORI RX,HHLL (R199). -/
def execXori (x : RegIdx) (imm : Word) (s : State) : Result := aluBinary xor16 x x (.imm imm) s

/-- XOR RX,RY (R200). -/
def execXor (x y : RegIdx) (s : State) : Result := aluBinary xor16 x x (.reg y) s

/-- XOR RZ,RX,RY (R201). -/
def execXor3 (z x y : RegIdx) (s : State) : Result := aluBinary xor16 z x (.reg y) s

end Sys2Proof.Machine
end

