-- ==== Sys2Proof/Machine/Peripheral.lean ====
section
/-! DEFINITION. NOP and the peripheral instructions (47_peripheral.md R250 to R272): what the core sends on its ports,
what it takes back, and what core state changes. Any port call may fail (R254). -/
namespace Sys2Proof.Machine

/-- Make the port calls and advance: the shape of every peripheral instruction that takes no answer. -/
def sendCalls (calls : List PortCall) (s : State) : Result :=
  (callPorts calls s).andThen fun t => .next t.advance

/-- Draw the sprite at an address and take the overlap into `C` (R260, R261). -/
def drawSprite (addr : Address) (x y : RegIdx) (s : State) : Result :=
  (callPorts [.gpuDraw (addr.value s) (s.reg x) (s.reg y)] s).andThen fun t =>
    .next (t.takeOverlap.setCarry t.overlapAnswer).advance

/-- The port write of palette entry `k` of `load_palette(a)` (R272): three bytes from `a + 3*k`, addresses wrapping. -/
def paletteCall (s : State) (a : Word) (k : Fin 16) : PortCall :=
  let e := a + BitVec.ofNat 16 (3 * k.val)
  .gpuPalette k (s.read8 e) (s.read8 (e + 1)) (s.read8 (e + 2))

/-- The value sent for a palette component: "the rational byte/255" (R272, U9). -/
def paletteComponent (b : Byte) : ℚ := (b.toNat : ℚ) / 255

/-- `load_palette(a)` (R272). Memory is only read and no port call writes it (R250), so reading all 48 bytes first is
the same as reading three before each call. -/
def loadPalette (addr : Address) (s : State) : Result := sendCalls (allRegs.map (paletteCall s (addr.value s))) s

/-- NOP (R255): no port call. -/
def execNop (s : State) : Result := .next s.advance

/-- CLS (R256). -/
def execCls (s : State) : Result := sendCalls [.gpuClearFg, .gpuClearBg] s

/-- VBLNK (R257): the step ends at its own address while the GPU is not in vertical blank. -/
def execVblnk (s : State) : Result :=
  (callPorts [.gpuVblank] s).andThen fun t =>
    .next (match t.vblankAnswer with
      | true => t.takeVblank.advance
      | false => t.takeVblank.jump t.pc)

/-- BGC N (R258). -/
def execBgc (n : Nibble) (s : State) : Result := sendCalls [.gpuBg n] s

/-- SPR HHLL (R259): width `ll`, then height `hh`. -/
def execSpr (width height : Byte) (s : State) : Result := sendCalls [.gpuSpriteW width, .gpuSpriteH height] s

/-- DRW HHLL,RX,RY (R260). -/
def execDrw (x y : RegIdx) (imm : Word) (s : State) : Result := drawSprite (.abs imm) x y s

/-- DRW RZ,RX,RY (R261): the sprite address is the word stored at address `x[z]`. -/
def execDrwR (z x y : RegIdx) (s : State) : Result := drawSprite (.atReg z) x y s

/-- RND RX,HHLL (R262). -/
def execRnd (x : RegIdx) (imm : Word) (s : State) : Result :=
  (callPorts [.rngNextInRange imm] s).andThen fun t => .next (t.takeRandom.setReg x (t.randomAnswer imm)).advance

/-- FLIP H,V (R263). -/
def execFlip (h v : Bool) (s : State) : Result := sendCalls [.gpuHflip h, .gpuVflip v] s

/-- SND0 (R264). -/
def execSnd0 (s : State) : Result := sendCalls [.spuStop] s

/-- SND1 HHLL (R265): the 500 Hz tone. -/
def execSnd1 (imm : Word) (s : State) : Result := sendCalls [.spuPlayFixed params.toneHz.snd1 imm] s

/-- SND2 HHLL (R266): the 1000 Hz tone. -/
def execSnd2 (imm : Word) (s : State) : Result := sendCalls [.spuPlayFixed params.toneHz.snd2 imm] s

/-- SND3 HHLL (R267): the 1500 Hz tone. -/
def execSnd3 (imm : Word) (s : State) : Result := sendCalls [.spuPlayFixed params.toneHz.snd3 imm] s

/-- SNP RX,HHLL (R268): the frequency is the word in memory at the address in the register. -/
def execSnp (x : RegIdx) (imm : Word) (s : State) : Result := sendCalls [.spuPlayTone (s.read16 (s.reg x)) imm] s

/-- SNG AD,SR,VT (R269). -/
def execSng (ad : Byte) (srvt : Word) (s : State) : Result := sendCalls [.spuSetup ad srvt] s

/-- PAL HHLL (R270). -/
def execPal (imm : Word) (s : State) : Result := loadPalette (.abs imm) s

/-- PAL RX (R271): the register holds the address of the first palette byte. -/
def execPalR (x : RegIdx) (s : State) : Result := loadPalette (.inReg x) s

end Sys2Proof.Machine
end

