-- ==== Sys2Proof/Machine/ShiftUnary.lean ====
section
/-! DEFINITION. Shifts and unary operations (45_shift_unary.md R210 to R219): `C` and `O` unchanged. -/
namespace Sys2Proof.Machine

/-- SHL RX,N (R211). -/
def execShl (x : RegIdx) (n : Nibble) (s : State) : Result := aluShift shl16 x n s

/-- SHR RX,N (R212). -/
def execShr (x : RegIdx) (n : Nibble) (s : State) : Result := aluShift shr16 x n s

/-- NOTI RX,HHLL (R214). -/
def execNoti (x : RegIdx) (imm : Word) (s : State) : Result := aluUnary not16 x (.imm imm) s

/-- NOT RX (R215). -/
def execNotR (x : RegIdx) (s : State) : Result := aluUnary not16 x (.reg x) s

/-- NOT RX,RY (R216). -/
def execNotRr (x y : RegIdx) (s : State) : Result := aluUnary not16 x (.reg y) s

/-- NEGI RX,HHLL (R217). -/
def execNegi (x : RegIdx) (imm : Word) (s : State) : Result := aluUnary neg16 x (.imm imm) s

/-- NEG RX (R218). -/
def execNegR (x : RegIdx) (s : State) : Result := aluUnary neg16 x (.reg x) s

/-- NEG RX,RY (R219). -/
def execNegRr (x y : RegIdx) (s : State) : Result := aluUnary neg16 x (.reg y) s

end Sys2Proof.Machine
end

