-- ==== Sys2Proof/Machine/Stack.lean ====
section
/-! DEFINITION. Stack (46_stack.md R230 to R239): the stack grows upward, items are 16-bit little-endian words, nothing
is checked. -/
namespace Sys2Proof.Machine

/-- PUSH RX (R232). -/
def execPush (x : RegIdx) (s : State) : Result := .next (s.push16 (s.reg x)).advance

/-- POP RX (R233). -/
def execPop (x : RegIdx) (s : State) : Result := .next (s.dropSlot.setReg x s.popped).advance

/-- PUSHALL (R234): `x[0]` at the lowest address, `sp` plus 32. -/
def execPushall (s : State) : Result := .next ((s.storeRegs s.sp allRegs).setSp (s.sp + 32)).advance

/-- POPALL (R235): `sp` less 32, then `x[0]` to `x[15]` from there up. -/
def execPopall (s : State) : Result := .next ((s.setSp (s.sp - 32)).loadRegs (s.sp - 32) allRegs).advance

/-- The slot PUSHF fills: the packed byte low, and the high byte as `PUSHF_HIGH_BYTE` says (R238, D7). -/
def State.storeFlags (s : State) : State :=
  match params.pushfHighByte with
  | .zero => s.write16 s.sp ((packFlags s.flags).zeroExtend 16)
  | .unchanged => s.write8 s.sp (packFlags s.flags)

/-- PUSHF (R238). -/
def execPushf (s : State) : Result := .next (s.storeFlags.setSp (s.sp + 2)).advance

/-- POPF (R239). -/
def execPopf (s : State) : Result := .next (s.dropSlot.setFlags (unpackFlags s.popped)).advance

end Sys2Proof.Machine
end

