-- ==== Sys2Proof/Machine/Dispatch.lean ====
section
/-! DEFINITION. The opcode dispatcher: one arm per form of 30_encoding.md R78, each calling its meaning. -/
namespace Sys2Proof.Machine

def exec (i : Instr) (s : State) : Host.Outcome State Fault Refusal :=
  match i with
  | .nop => Sys2Proof.Machine.execNop s
  | .cls => Sys2Proof.Machine.execCls s
  | .vblnk => Sys2Proof.Machine.execVblnk s
  | .bgc n => Sys2Proof.Machine.execBgc n s
  | .spr width height => Sys2Proof.Machine.execSpr width height s
  | .drw x y imm => Sys2Proof.Machine.execDrw x y imm s
  | .drwR z x y => Sys2Proof.Machine.execDrwR z x y s
  | .rnd x imm => Sys2Proof.Machine.execRnd x imm s
  | .flip h v => Sys2Proof.Machine.execFlip h v s
  | .snd0 => Sys2Proof.Machine.execSnd0 s
  | .snd1 imm => Sys2Proof.Machine.execSnd1 imm s
  | .snd2 imm => Sys2Proof.Machine.execSnd2 imm s
  | .snd3 imm => Sys2Proof.Machine.execSnd3 imm s
  | .snp x imm => Sys2Proof.Machine.execSnp x imm s
  | .sng ad srvt => Sys2Proof.Machine.execSng ad srvt s
  | .jmp imm => Sys2Proof.Machine.execJmp imm s
  | .jcc c target => Sys2Proof.Machine.execJcc c target s
  | .jme x y imm => Sys2Proof.Machine.execJme x y imm s
  | .call imm => Sys2Proof.Machine.execCall imm s
  | .ret => Sys2Proof.Machine.execRet s
  | .jmpR x => Sys2Proof.Machine.execJmpR x s
  | .callcc c target => Sys2Proof.Machine.execCallcc c target s
  | .callR x => Sys2Proof.Machine.execCallR x s
  | .ldi x imm => Sys2Proof.Machine.execLdi x imm s
  | .ldiSp imm => Sys2Proof.Machine.execLdiSp imm s
  | .ldm x imm => Sys2Proof.Machine.execLdm x imm s
  | .ldmRr x y => Sys2Proof.Machine.execLdmRr x y s
  | .stm x imm => Sys2Proof.Machine.execStm x imm s
  | .stmRr x y => Sys2Proof.Machine.execStmRr x y s
  | .addi x imm => Sys2Proof.Machine.execAddi x imm s
  | .add x y => Sys2Proof.Machine.execAdd x y s
  | .add3 z x y => Sys2Proof.Machine.execAdd3 z x y s
  | .subi x imm => Sys2Proof.Machine.execSubi x imm s
  | .sub x y => Sys2Proof.Machine.execSub x y s
  | .sub3 z x y => Sys2Proof.Machine.execSub3 z x y s
  | .cmpi x imm => Sys2Proof.Machine.execCmpi x imm s
  | .cmp x y => Sys2Proof.Machine.execCmp x y s
  | .andi x imm => Sys2Proof.Machine.execAndi x imm s
  | .and x y => Sys2Proof.Machine.execAnd x y s
  | .and3 z x y => Sys2Proof.Machine.execAnd3 z x y s
  | .tsti x imm => Sys2Proof.Machine.execTsti x imm s
  | .tst x y => Sys2Proof.Machine.execTst x y s
  | .ori x imm => Sys2Proof.Machine.execOri x imm s
  | .or x y => Sys2Proof.Machine.execOr x y s
  | .or3 z x y => Sys2Proof.Machine.execOr3 z x y s
  | .xori x imm => Sys2Proof.Machine.execXori x imm s
  | .xor x y => Sys2Proof.Machine.execXor x y s
  | .xor3 z x y => Sys2Proof.Machine.execXor3 z x y s
  | .muli x imm => Sys2Proof.Machine.execMuli x imm s
  | .mul x y => Sys2Proof.Machine.execMul x y s
  | .mul3 z x y => Sys2Proof.Machine.execMul3 z x y s
  | .divi x imm => Sys2Proof.Machine.execDivi x imm s
  | .div x y => Sys2Proof.Machine.execDiv x y s
  | .div3 z x y => Sys2Proof.Machine.execDiv3 z x y s
  | .modi x imm => Sys2Proof.Machine.execModi x imm s
  | .mod x y => Sys2Proof.Machine.execMod x y s
  | .mod3 z x y => Sys2Proof.Machine.execMod3 z x y s
  | .shl x n => Sys2Proof.Machine.execShl x n s
  | .shr x n => Sys2Proof.Machine.execShr x n s
  | .push x => Sys2Proof.Machine.execPush x s
  | .pop x => Sys2Proof.Machine.execPop x s
  | .pushall => Sys2Proof.Machine.execPushall s
  | .popall => Sys2Proof.Machine.execPopall s
  | .pushf => Sys2Proof.Machine.execPushf s
  | .popf => Sys2Proof.Machine.execPopf s
  | .pal imm => Sys2Proof.Machine.execPal imm s
  | .palR x => Sys2Proof.Machine.execPalR x s
  | .noti x imm => Sys2Proof.Machine.execNoti x imm s
  | .notR x => Sys2Proof.Machine.execNotR x s
  | .notRr x y => Sys2Proof.Machine.execNotRr x y s
  | .negi x imm => Sys2Proof.Machine.execNegi x imm s
  | .negR x => Sys2Proof.Machine.execNegR x s
  | .negRr x y => Sys2Proof.Machine.execNegRr x y s

end Sys2Proof.Machine
end

