-- ==== Sys2Proof/WellFormed.lean ====
section
/-! DEFINITION. Which instructions an assembler can write (30_encoding.md R82, R84). -/
namespace Sys2Proof

/-- A condition with a name: code 15 has none, so `Jcc` and `CALLcc` cannot be written with it (R84, R101, R103). -/
def Cond.named : Cond → Bool
  | .reserved => false
  | .z | .nz | .n | .nn | .p | .o | .no | .a | .ae | .b | .be | .g | .ge | .l | .le => true

/-- The one value inside a valid instruction that is reserved is condition code 15 (R81); every other operand value is
legal, since the operand types hold exactly what the fields of R72 can hold. An ill-formed instruction still has an
encoding and a step: that step faults (R103). -/
def Instr.wellFormed : Instr → Bool
  | .jcc c _ => c.named
  | .callcc c _ => c.named
  | .nop | .cls | .vblnk | .bgc _ | .spr _ _ | .drw _ _ _ => true
  | .drwR _ _ _ | .rnd _ _ | .flip _ _ | .snd0 | .snd1 _ | .snd2 _ => true
  | .snd3 _ | .snp _ _ | .sng _ _ | .jmp _ | .jme _ _ _ | .call _ => true
  | .ret | .jmpR _ | .callR _ | .ldi _ _ | .ldiSp _ | .ldm _ _ => true
  | .ldmRr _ _ | .stm _ _ | .stmRr _ _ | .addi _ _ | .add _ _ | .add3 _ _ _ => true
  | .subi _ _ | .sub _ _ | .sub3 _ _ _ | .cmpi _ _ | .cmp _ _ | .andi _ _ => true
  | .and _ _ | .and3 _ _ _ | .tsti _ _ | .tst _ _ | .ori _ _ | .or _ _ => true
  | .or3 _ _ _ | .xori _ _ | .xor _ _ | .xor3 _ _ _ | .muli _ _ | .mul _ _ => true
  | .mul3 _ _ _ | .divi _ _ | .div _ _ | .div3 _ _ _ | .modi _ _ | .mod _ _ => true
  | .mod3 _ _ _ | .shl _ _ | .shr _ _ | .push _ | .pop _ | .pushall => true
  | .popall | .pushf | .popf | .pal _ | .palR _ | .noti _ _ => true
  | .notR _ | .notRr _ _ | .negi _ _ | .negR _ | .negRr _ _ => true

end Sys2Proof
end

