-- ==== Sys2Proof/Decode.lean ====
section
/-! DEFINITION. Decoding, total on any bytes, and the encoder (30_encoding.md R70 to R86). -/
namespace Sys2Proof

open Sys2Proof.Machine

/-- The four bytes of an instruction, in address order: OPCODE, YX, LL, HH (R71). -/
structure Fields where
  op : Byte
  yx : Byte
  ll : Byte
  hh : Byte
  deriving DecidableEq, Repr

/-- `y`, the high nibble of YX (R72). -/
def Fields.y (w : Fields) : RegIdx := toReg (highNibble w.yx)

/-- `x`, the low nibble of YX (R72). -/
def Fields.x (w : Fields) : RegIdx := toReg (lowNibble w.yx)

/-- `hhll = (hh << 8) | ll` (R72, R75). -/
def Fields.hhll (w : Fields) : Word := joinBytes w.ll w.hh

/-- `n4`, the low nibble of LL (R72). -/
def Fields.n4 (w : Fields) : Nibble := lowNibble w.ll

/-- `z`: the bits of `n4` as a register index (R72). -/
def Fields.z (w : Fields) : RegIdx := toReg w.n4

/-- `hh[1]`, the H of FLIP (R86). -/
def Fields.h (w : Fields) : Bool := w.hh.getLsbD 1

/-- `hh[0]`, the V of FLIP (R86). -/
def Fields.v (w : Fields) : Bool := w.hh.getLsbD 0

/-- The number of a condition (R101). -/
def condCode : Cond → Nibble
  | .z => 0 | .nz => 1 | .n => 2 | .nn => 3 | .p => 4 | .o => 5 | .no => 6 | .a => 7
  | .ae => 8 | .b => 9 | .be => 10 | .g => 11 | .ge => 12 | .l => 13 | .le => 14 | .reserved => 15

/-- The condition a code selects (R101, R103). -/
def condOf (c : Nibble) : Cond :=
  match c.toNat with
  | 0 => .z | 1 => .nz | 2 => .n | 3 => .nn | 4 => .p | 5 => .o | 6 => .no | 7 => .a
  | 8 => .ae | 9 => .b | 10 => .be | 11 => .g | 12 => .ge | 13 => .l | 14 => .le | _ => .reserved

/-- The `x` nibble read as a condition code (R74 format CI). -/
def Fields.cond (w : Fields) : Cond := condOf (lowNibble w.yx)

/-- Why bytes decode to no instruction. -/
inductive DecodeError
  /-- fewer than the four bytes every instruction has (R70); no fetch of the machine meets it (R57) -/
  | truncated
  /-- "an opcode byte with no registered handler" (R80, R291) -/
  | invalidOpcode (op : Byte)
  deriving DecidableEq, Repr

/-- The form an opcode byte selects; `op` alone decides (R76, R78, R80). -/
def formOf (op : Byte) : Option Form := Form.all.find? fun f => params.opcodeMap f == op

/-- The instruction of a form with the operands its format reads (R74, R78). -/
def Form.build (f : Form) (w : Fields) : Instr :=
  match f with
  | .nop => .nop
  | .cls => .cls
  | .vblnk => .vblnk
  | .bgc => .bgc w.n4
  | .spr => .spr w.ll w.hh
  | .drw => .drw w.x w.y w.hhll
  | .drwR => .drwR w.z w.x w.y
  | .rnd => .rnd w.x w.hhll
  | .flip => .flip w.h w.v
  | .snd0 => .snd0
  | .snd1 => .snd1 w.hhll
  | .snd2 => .snd2 w.hhll
  | .snd3 => .snd3 w.hhll
  | .snp => .snp w.x w.hhll
  | .sng => .sng w.yx w.hhll
  | .jmp => .jmp w.hhll
  | .jcc => .jcc w.cond w.hhll
  | .jme => .jme w.x w.y w.hhll
  | .call => .call w.hhll
  | .ret => .ret
  | .jmpR => .jmpR w.x
  | .callcc => .callcc w.cond w.hhll
  | .callR => .callR w.x
  | .ldi => .ldi w.x w.hhll
  | .ldiSp => .ldiSp w.hhll
  | .ldm => .ldm w.x w.hhll
  | .ldmRr => .ldmRr w.x w.y
  | .stm => .stm w.x w.hhll
  | .stmRr => .stmRr w.x w.y
  | .addi => .addi w.x w.hhll
  | .add => .add w.x w.y
  | .add3 => .add3 w.z w.x w.y
  | .subi => .subi w.x w.hhll
  | .sub => .sub w.x w.y
  | .sub3 => .sub3 w.z w.x w.y
  | .cmpi => .cmpi w.x w.hhll
  | .cmp => .cmp w.x w.y
  | .andi => .andi w.x w.hhll
  | .and => .and w.x w.y
  | .and3 => .and3 w.z w.x w.y
  | .tsti => .tsti w.x w.hhll
  | .tst => .tst w.x w.y
  | .ori => .ori w.x w.hhll
  | .or => .or w.x w.y
  | .or3 => .or3 w.z w.x w.y
  | .xori => .xori w.x w.hhll
  | .xor => .xor w.x w.y
  | .xor3 => .xor3 w.z w.x w.y
  | .muli => .muli w.x w.hhll
  | .mul => .mul w.x w.y
  | .mul3 => .mul3 w.z w.x w.y
  | .divi => .divi w.x w.hhll
  | .div => .div w.x w.y
  | .div3 => .div3 w.z w.x w.y
  | .modi => .modi w.x w.hhll
  | .mod => .mod w.x w.y
  | .mod3 => .mod3 w.z w.x w.y
  | .shl => .shl w.x w.n4
  | .shr => .shr w.x w.n4
  | .push => .push w.x
  | .pop => .pop w.x
  | .pushall => .pushall
  | .popall => .popall
  | .pushf => .pushf
  | .popf => .popf
  | .pal => .pal w.hhll
  | .palR => .palR w.x
  | .noti => .noti w.x w.hhll
  | .notR => .notR w.x
  | .notRr => .notRr w.x w.y
  | .negi => .negi w.x w.hhll
  | .negR => .negR w.x
  | .negRr => .negRr w.x w.y

/-- Decode four bytes (R72, R76, R80). -/
def decodeFields (w : Fields) : Except DecodeError Instr :=
  match formOf w.op with
  | some f => .ok (f.build w)
  | none => .error (.invalidOpcode w.op)

/-- Decode the instruction at the head of any bytes, with the bytes after it. -/
def decode : List Byte → Except DecodeError (Instr × List Byte)
  | b0 :: b1 :: b2 :: b3 :: rest =>
    match decodeFields { op := b0, yx := b1, ll := b2, hh := b3 } with
    | .ok i => .ok (i, rest)
    | .error e => .error e
  | [] | [_] | [_, _] | [_, _, _] => .error .truncated

/-- The word `W` of R73, byte 0 in its most significant position, as the four bytes in memory order. -/
def fieldsOfWord (w : BitVec 32) : Fields where
  op := w.extractLsb' 24 8
  yx := w.extractLsb' 16 8
  ll := w.extractLsb' 8 8
  hh := w.extractLsb' 0 8

/-- The low `nbits` bits of `w` as an instruction word: spec/opcode_table.json numbers `W`'s bits so that 31:24 is
the opcode byte (R73); bits above `nbits` are 0 and no instruction has more than 32 (log 23). -/
def tableWord (nbits w : Nat) : BitVec 32 := BitVec.ofNat 32 (w % 2 ^ nbits)

/-- The instruction the decoder reads from a word numbered as the opcode table numbers it. -/
def decodeTableWord (nbits w : Nat) : Option Instr :=
  match decodeFields (fieldsOfWord (tableWord nbits w)) with
  | .ok i => some i
  | .error _ => none

/-! ## The encoder: the "bytes" column of R78, with the bits a format does not read 0 (R76) -/

/-- The bytes of a form with its three operand bytes. -/
def asm (f : Form) (yx ll hh : Byte) : Fields where
  op := params.opcodeMap f
  yx := yx
  ll := ll
  hh := hh

/-- No operand (format N). -/
def plain (f : Form) : Fields := asm f 0 0 0

/-- `hhll` alone (format I). -/
def withImm (f : Form) (imm : Word) : Fields := asm f 0 (lowByte imm) (highByte imm)

/-- The YX byte of registers `x` and `y` (R72). -/
def pairXY (x y : RegIdx) : Byte := joinNibbles (ofReg y) (ofReg x)

/-- The HH byte of FLIP: `2*H + V` (R86). -/
def flipByte (h v : Bool) : Byte :=
  (if h then 2 else 0) + (if v then 1 else 0)

/-- The four bytes of an instruction. -/
def Instr.fields : Instr → Fields
  | .nop => plain .nop
  | .cls => plain .cls
  | .vblnk => plain .vblnk
  | .bgc n => asm .bgc 0 (joinNibbles 0 n) 0
  | .spr width height => asm .spr 0 width height
  | .drw x y imm => asm .drw (pairXY x y) (lowByte imm) (highByte imm)
  | .drwR z x y => asm .drwR (pairXY x y) (joinNibbles 0 (ofReg z)) 0
  | .rnd x imm => asm .rnd (pairXY x 0) (lowByte imm) (highByte imm)
  | .flip h v => asm .flip 0 0 (flipByte h v)
  | .snd0 => plain .snd0
  | .snd1 imm => withImm .snd1 imm
  | .snd2 imm => withImm .snd2 imm
  | .snd3 imm => withImm .snd3 imm
  | .snp x imm => asm .snp (pairXY x 0) (lowByte imm) (highByte imm)
  | .sng ad srvt => asm .sng ad (lowByte srvt) (highByte srvt)
  | .jmp imm => withImm .jmp imm
  | .jcc c target => asm .jcc (joinNibbles 0 (condCode c)) (lowByte target) (highByte target)
  | .jme x y imm => asm .jme (pairXY x y) (lowByte imm) (highByte imm)
  | .call imm => withImm .call imm
  | .ret => plain .ret
  | .jmpR x => asm .jmpR (pairXY x 0) 0 0
  | .callcc c target => asm .callcc (joinNibbles 0 (condCode c)) (lowByte target) (highByte target)
  | .callR x => asm .callR (pairXY x 0) 0 0
  | .ldi x imm => asm .ldi (pairXY x 0) (lowByte imm) (highByte imm)
  | .ldiSp imm => withImm .ldiSp imm
  | .ldm x imm => asm .ldm (pairXY x 0) (lowByte imm) (highByte imm)
  | .ldmRr x y => asm .ldmRr (pairXY x y) 0 0
  | .stm x imm => asm .stm (pairXY x 0) (lowByte imm) (highByte imm)
  | .stmRr x y => asm .stmRr (pairXY x y) 0 0
  | .addi x imm => asm .addi (pairXY x 0) (lowByte imm) (highByte imm)
  | .add x y => asm .add (pairXY x y) 0 0
  | .add3 z x y => asm .add3 (pairXY x y) (joinNibbles 0 (ofReg z)) 0
  | .subi x imm => asm .subi (pairXY x 0) (lowByte imm) (highByte imm)
  | .sub x y => asm .sub (pairXY x y) 0 0
  | .sub3 z x y => asm .sub3 (pairXY x y) (joinNibbles 0 (ofReg z)) 0
  | .cmpi x imm => asm .cmpi (pairXY x 0) (lowByte imm) (highByte imm)
  | .cmp x y => asm .cmp (pairXY x y) 0 0
  | .andi x imm => asm .andi (pairXY x 0) (lowByte imm) (highByte imm)
  | .and x y => asm .and (pairXY x y) 0 0
  | .and3 z x y => asm .and3 (pairXY x y) (joinNibbles 0 (ofReg z)) 0
  | .tsti x imm => asm .tsti (pairXY x 0) (lowByte imm) (highByte imm)
  | .tst x y => asm .tst (pairXY x y) 0 0
  | .ori x imm => asm .ori (pairXY x 0) (lowByte imm) (highByte imm)
  | .or x y => asm .or (pairXY x y) 0 0
  | .or3 z x y => asm .or3 (pairXY x y) (joinNibbles 0 (ofReg z)) 0
  | .xori x imm => asm .xori (pairXY x 0) (lowByte imm) (highByte imm)
  | .xor x y => asm .xor (pairXY x y) 0 0
  | .xor3 z x y => asm .xor3 (pairXY x y) (joinNibbles 0 (ofReg z)) 0
  | .muli x imm => asm .muli (pairXY x 0) (lowByte imm) (highByte imm)
  | .mul x y => asm .mul (pairXY x y) 0 0
  | .mul3 z x y => asm .mul3 (pairXY x y) (joinNibbles 0 (ofReg z)) 0
  | .divi x imm => asm .divi (pairXY x 0) (lowByte imm) (highByte imm)
  | .div x y => asm .div (pairXY x y) 0 0
  | .div3 z x y => asm .div3 (pairXY x y) (joinNibbles 0 (ofReg z)) 0
  | .modi x imm => asm .modi (pairXY x 0) (lowByte imm) (highByte imm)
  | .mod x y => asm .mod (pairXY x y) 0 0
  | .mod3 z x y => asm .mod3 (pairXY x y) (joinNibbles 0 (ofReg z)) 0
  | .shl x n => asm .shl (pairXY x 0) (joinNibbles 0 n) 0
  | .shr x n => asm .shr (pairXY x 0) (joinNibbles 0 n) 0
  | .push x => asm .push (pairXY x 0) 0 0
  | .pop x => asm .pop (pairXY x 0) 0 0
  | .pushall => plain .pushall
  | .popall => plain .popall
  | .pushf => plain .pushf
  | .popf => plain .popf
  | .pal imm => withImm .pal imm
  | .palR x => asm .palR (pairXY x 0) 0 0
  | .noti x imm => asm .noti (pairXY x 0) (lowByte imm) (highByte imm)
  | .notR x => asm .notR (pairXY x 0) 0 0
  | .notRr x y => asm .notRr (pairXY x y) 0 0
  | .negi x imm => asm .negi (pairXY x 0) (lowByte imm) (highByte imm)
  | .negR x => asm .negR (pairXY x 0) 0 0
  | .negRr x y => asm .negRr (pairXY x y) 0 0

/-- The bytes of an instruction, in address order (R71, R78). -/
def encode (i : Instr) : List Byte := [i.fields.op, i.fields.yx, i.fields.ll, i.fields.hh]

/-! ## The bits a format reads (R74) -/

/-- For each format, the bits of YX, LL and HH that it reads, as 1 bits (R74); the opcode byte is always read. -/
def readMask : Format → Byte × Byte × Byte
  | .n => (0x00, 0x00, 0x00)
  | .i => (0x00, 0xFF, 0xFF)
  | .wh => (0x00, 0xFF, 0xFF)
  | .n4 => (0x00, 0x0F, 0x00)
  | .hv => (0x00, 0x00, 0x03)
  | .ai => (0xFF, 0xFF, 0xFF)
  | .ci => (0x0F, 0xFF, 0xFF)
  | .r => (0x0F, 0x00, 0x00)
  | .ri => (0x0F, 0xFF, 0xFF)
  | .rn => (0x0F, 0x0F, 0x00)
  | .rr => (0xFF, 0x00, 0x00)
  | .rri => (0xFF, 0xFF, 0xFF)
  | .rrr => (0xFF, 0x0F, 0x00)

/-- The bytes with every bit the form does not read set to 0: the canonical encoding of R78. -/
def Fields.canonical (f : Form) (w : Fields) : Fields where
  op := w.op
  yx := w.yx &&& (readMask f.format).1
  ll := w.ll &&& (readMask f.format).2.1
  hh := w.hh &&& (readMask f.format).2.2

end Sys2Proof
end

