-- ==== Sys2Proof/Machine/Fetch.lean ====
section
/-! DEFINITION. Instruction fetch (20_memory.md R57, 70_reset_and_hazards.md R325 step 1) and its inverse, placing an
instruction's bytes where the next fetch reads them. -/
namespace Sys2Proof.Machine

/-- The four bytes at `pc`, `pc+1`, `pc+2`, `pc+3`, addresses modulo 0x10000 (R57, R71). -/
def State.fetch (s : State) : Fields where
  op := s.read8 s.pc
  yx := s.read8 (s.pc + 1)
  ll := s.read8 (s.pc + 2)
  hh := s.read8 (s.pc + 3)

/-- The four bytes stored from address `a` up, as the host writes them (R54, R66). -/
def State.place (s : State) (a : Word) (w : Fields) : State :=
  (((s.write8 a w.op).write8 (a + 1) w.yx).write8 (a + 2) w.ll).write8 (a + 3) w.hh

/-- Stored where the next step fetches, with the latch clear, so that the next step runs (R323; log 18). -/
def State.placeNext (s : State) (w : Fields) : State := { s.place s.pc w with fault := none }

end Sys2Proof.Machine
end

