-- ==== Sys2Proof/Machine/Step.lean ====
section
/-! DEFINITION. One step (70_reset_and_hazards.md R325). -/
namespace Sys2Proof.Machine

/-- Fetch and decode one instruction, run its meaning (which ends by setting `pc`), and count the step. An opcode byte
with no handler faults at dispatch (R291); a faulting step gives no next state (R12, R295); a core whose latch holds a
fault executes nothing (R36). -/
def step (s : State) : Host.Outcome State Fault Refusal :=
  match s.fault with
  | some f => .refused (.coreFaulted f)
  | none =>
    match decodeFields s.fetch with
    | .error _ => raise (.invalidOpcode s.pc s.fetch.op)
    | .ok i => Result.andThen (exec i s) fun t => .next t.countCycle

/-- `s` with the instruction whose bits are `w`, numbered as spec/opcode_table.json numbers them, where the next step
fetches (log 18, log 23). -/
def State.withFetchWord (s : State) (nbits w : Nat) : State := s.placeNext (fieldsOfWord (tableWord nbits w))

end Sys2Proof.Machine
end

