-- ==== Sys2Proof/Machine/HostPort.lean ====
section
/-! DEFINITION. What the host may do between steps (70_reset_and_hazards.md R320 to R324, 60_exceptions.md R303), as
functions on the state. Reading is `State.read8`, `State.read16`, the fields of State and `State.status`. -/
namespace Sys2Proof.Machine

/-- The actions of R323 that change the state; "stop requesting steps" and every read change nothing. -/
inductive HostAction
  /-- reset (R320) -/
  | reset
  /-- `write_8bit` (R54) -/
  | write8 (a : Word) (v : Byte)
  /-- `write_16bit` (R56) -/
  | write16 (a v : Word)
  /-- set a register: test use (R303) -/
  | setReg (i : RegIdx) (v : Word)
  /-- set the flags: test use (R303) -/
  | setFlags (f : Flags)
  /-- set `pc`: test use (R303) -/
  | setPc (v : Word)
  /-- set `sp`: test use (R303) -/
  | setSp (v : Word)
  /-- supply the peripherals behind the ports: in this model, what they will answer (R250; logs 14, 15) -/
  | supply (inputs : PortInputs)
  /-- request a step (R325) -/
  | requestStep
  deriving DecidableEq, Repr

/-- A step request as the host sees it (R295, R323): a completed step gives its next state, a faulting step the terminal
state with the latch set, and a core already faulted does nothing. -/
def State.requestStep (s : State) : State :=
  match step s with
  | .next t => t
  | .fault f => s.latch f
  | .refused _ => s

/-- The state after a host action. -/
def hostAct (a : HostAction) (s : State) : State :=
  match a with
  | .reset => State.reset
  | .write8 a v => s.write8 a v
  | .write16 a v => s.write16 a v
  | .setReg i v => s.setReg i v
  | .setFlags f => s.setFlags f
  | .setPc v => s.jump v
  | .setSp v => s.setSp v
  | .supply p => { s with inputs := p }
  | .requestStep => s.requestStep

/-- Write an image byte by byte: ROM loading "must place the program's bytes at the addresses the engine will read"
(R52, R322). -/
def State.loadImage (s : State) : List (Word × Byte) → State
  | [] => s
  | (a, v) :: rest => State.loadImage (s.write8 a v) rest

/-- The state at the first step of a run: reset, then the host's image (`INIT_MEM`: R52, D19). -/
def State.launch (image : List (Word × Byte)) : State := State.reset.loadImage image

end Sys2Proof.Machine
end

