-- ==== Sys2Proof/Safety.lean ====
section
/-! DEFINITION. The terms claims use: the invariant of a running machine, healthy ports, final states, the effects of
the ALU functions in exact arithmetic, the spec's tables of who writes what, and what a step leaves alone. -/
namespace Sys2Proof.Machine

/-! ## Runs -/

/-- A machine that can run: its memory is in canonical form and no fault is latched (R36: "a claim about a run takes
`fault = none` as a premise"). -/
abbrev State.Inv (s : State) : Prop := s.mem.wf = true ∧ s.fault = none

/-- The next `n` port calls do not fail: the premise D21 names (R254). -/
abbrev State.PortsHealthy (n : Nat) (s : State) : Prop := ∀ o ∈ s.inputs.outcomes.take n, o = none

/-- Port call number `k` from here on fails with `e`, and none before it fails (R293). -/
abbrev State.PortFailsAt (k : Nat) (e : PeripheralError) (s : State) : Prop :=
  s.PortsHealthy k ∧ s.inputs.outcomes[k]? = some (some e)

/-- A state without a latched fault whose `pc` points at a `JMP HHLL` to its own address: "final", by convention (R324,
D25; log 26). A faulted state is "terminal and never final" (R295). -/
abbrev State.Final (s : State) : Prop := s.fault = none ∧ decodeFields s.fetch = .ok (.jmp s.pc)

/-! ## What a step leaves alone -/

/-- Every register but those listed is as it was. -/
abbrev RegsKeptBut (changed : List RegIdx) (s t : State) : Prop := ∀ r, r ∉ changed → t.reg r = s.reg r

/-- Every byte of memory but those at the listed addresses reads as it did. -/
def MemKeptBut (changed : List Word) (s t : State) : Prop := ∀ a, a ∉ changed → t.read8 a = s.read8 a

/-- Nothing passed the ports, and the latch and the step counter are as they were. -/
abbrev PortsQuiet (s t : State) : Prop :=
  t.inputs = s.inputs ∧ t.portLog = s.portLog ∧ t.fault = s.fault ∧ t.cycles = s.cycles

/-- An ALU step: only register `d` (if any), flags and `pc` may differ, and `pc` advances by 4. -/
def AluFrame (d : Option RegIdx) (s t : State) : Prop :=
  RegsKeptBut d.toList s t ∧ MemKeptBut [] s t ∧ t.sp = s.sp ∧ t.pc = s.pc + 4 ∧ PortsQuiet s t

/-- Nothing but `pc` differs. -/
def OnlyPc (s t : State) : Prop :=
  RegsKeptBut [] s t ∧ MemKeptBut [] s t ∧ t.sp = s.sp ∧ t.flags = s.flags ∧ PortsQuiet s t

/-- Only the bytes listed, `sp` and `pc` may differ. -/
def StoreFrame (changed : List Word) (s t : State) : Prop :=
  RegsKeptBut [] s t ∧ MemKeptBut changed s t ∧ t.flags = s.flags ∧ PortsQuiet s t

/-- The bytes of a 16-bit store at `a` (R56). -/
abbrev storedAt (a : Word) : List Word := [a, a + 1]

/-- The bytes PUSHALL stores from `base` up (R234). -/
def savedBlock (base : Word) : List Word := (List.range 32).map fun k => base + BitVec.ofNat 16 k

/-- The two bytes at `a` hold the word `v`, low byte first (R55, R58). -/
abbrev HoldsWord (t : State) (a v : Word) : Prop :=
  (t.read8 a).toNat = v.toNat % 256 ∧ (t.read8 (a + 1)).toNat = v.toNat / 256

/-- The word whose two bytes stand at `a`, low byte first (R55, R58). -/
def wordAt (s : State) (a : Word) : Word := BitVec.ofNat 16 ((s.read8 a).toNat + 256 * (s.read8 (a + 1)).toNat)

/-- These port calls were made, in order and after every earlier one, their outcomes are used up, and no other
environment input is (R328). -/
abbrev SentOnly (calls : List PortCall) (s t : State) : Prop :=
  t.portLog = s.portLog ++ calls ∧
    t.inputs = { s.inputs with outcomes := s.inputs.outcomes.drop calls.length }

/-- No register, flag, `sp`, memory byte, latch or step counter differs (the frame of 47_peripheral.md). -/
def CoreKept (s t : State) : Prop :=
  RegsKeptBut [] s t ∧ MemKeptBut [] s t ∧ t.sp = s.sp ∧ t.flags = s.flags ∧ t.fault = s.fault ∧ t.cycles = s.cycles

/-! ## Effects of the ALU functions, in exact arithmetic -/

/-- `signed16(v)` (R8). -/
def signed16 (v : Word) : Int := if v.toNat < 32768 then v.toNat else (v.toNat : Int) - 65536

/-- `Z` and `N` of a 16-bit result (R10). -/
abbrev ZeroNegativeOf (r : Word) (f : Flags) : Prop := (f.z = true ↔ r.toNat = 0) ∧ (f.n = true ↔ 32768 ≤ r.toNat)

/-- `r` and the four flags of `add16(a, b)` (R150). -/
def AddEffect (a b r : Word) (f : Flags) : Prop :=
  r.toNat = (a.toNat + b.toNat) % 65536 ∧
    (f.c = true ↔ 65535 < a.toNat + b.toNat) ∧
    (f.o = true ↔ a.msb = b.msb ∧ r.msb ≠ a.msb) ∧
    (f.o = true ↔ signed16 a + signed16 b < -32768 ∨ 32767 < signed16 a + signed16 b) ∧
    ZeroNegativeOf r f

/-- `r` and the four flags of `sub16(a, b)` (R151). -/
def SubEffect (a b r : Word) (f : Flags) : Prop :=
  r.toNat = (65536 + a.toNat - b.toNat) % 65536 ∧
    (f.c = true ↔ b.toNat ≤ a.toNat) ∧
    (f.o = true ↔ a.msb ≠ b.msb ∧ r.msb ≠ a.msb) ∧
    (f.o = true ↔ signed16 a - signed16 b < -32768 ∨ 32767 < signed16 a - signed16 b) ∧
    ZeroNegativeOf r f

/-- `r` and the flags of `mul16(a, b)` with `old` before it (R152). -/
def MulEffect (a b r : Word) (old f : Flags) : Prop :=
  r.toNat = a.toNat * b.toNat % 65536 ∧
    (f.c = true ↔ 65536 ≤ a.toNat * b.toNat) ∧
    (f.z = true ↔ r.toNat = 0) ∧
    (f.n = true ↔ 2 ^ 31 ≤ a.toNat * b.toNat) ∧
    f.o = old.o

/-- `r` and the flags of `div16(a, b)` for `b` not 0 (R153, unsigned by D5). -/
def DivEffect (a b r : Word) (old f : Flags) : Prop :=
  r.toNat = a.toNat / b.toNat ∧ (f.c = true ↔ ¬ b.toNat ∣ a.toNat) ∧ ZeroNegativeOf r f ∧ f.o = old.o

/-- `r` and the flags of `mod16(a, b)` for `b` not 0 (R154, unsigned by D5). -/
def ModEffect (a b r : Word) (old f : Flags) : Prop :=
  r.toNat = a.toNat % b.toNat ∧ (f.c = true ↔ ¬ b.toNat ∣ a.toNat) ∧ ZeroNegativeOf r f ∧ f.o = old.o

/-- `r` is the bitwise `f` of `a` and `b`; `Z`, `N` follow it, `C` and `O` are kept (R190). -/
def LogicEffect (op : Bool → Bool → Bool) (a b r : Word) (old f : Flags) : Prop :=
  (∀ i, i < 16 → r.getLsbD i = op (a.getLsbD i) (b.getLsbD i)) ∧
    ZeroNegativeOf r f ∧ f.c = old.c ∧ f.o = old.o

/-- A result whose `Z`, `N` follow it while `C` and `O` are kept (R210, R213). -/
def UnaryEffect (value : Nat) (r : Word) (old f : Flags) : Prop :=
  r.toNat = value ∧ ZeroNegativeOf r f ∧ f.c = old.c ∧ f.o = old.o

end Sys2Proof.Machine

namespace Sys2Proof

open Sys2Proof.Machine

/-! ## The spec's tables -/

/-- The forms that write `C` (the table of R31). -/
def Form.writesC : Form → Bool
  | .addi | .add | .add3 | .subi | .sub | .sub3 | .cmpi | .cmp | .muli | .mul | .mul3 | .divi | .div | .div3
  | .modi | .mod | .mod3 | .drw | .drwR | .popf => true
  | _ => false

/-- The forms that write `O` (the table of R31). -/
def Form.writesO : Form → Bool
  | .addi | .add | .add3 | .subi | .sub | .sub3 | .cmpi | .cmp | .popf => true
  | _ => false

/-- The forms that write `Z` and `N`: the same rows of the table of R31. -/
def Form.writesZN : Form → Bool
  | .addi | .add | .add3 | .subi | .sub | .sub3 | .cmpi | .cmp | .muli | .mul | .mul3 | .divi | .div | .div3
  | .modi | .mod | .mod3 | .andi | .and | .and3 | .tsti | .tst | .ori | .or | .or3 | .xori | .xor | .xor3
  | .shl | .shr | .noti | .notR | .notRr | .negi | .negR | .negRr | .popf => true
  | _ => false

/-- The registers an instruction may write (R22). -/
def Instr.writesRegs : Instr → List RegIdx
  | .ldi x _ | .ldm x _ | .ldmRr x _ | .rnd x _ | .pop x => [x]
  | .addi x _ | .add x _ | .subi x _ | .sub x _ | .muli x _ | .mul x _ | .divi x _ | .div x _ | .modi x _ | .mod x _ => [x]
  | .andi x _ | .and x _ | .ori x _ | .or x _ | .xori x _ | .xor x _ | .shl x _ | .shr x _ => [x]
  | .noti x _ | .notR x | .notRr x _ | .negi x _ | .negR x | .negRr x _ => [x]
  | .add3 z _ _ | .sub3 z _ _ | .mul3 z _ _ | .div3 z _ _ | .mod3 z _ _ | .and3 z _ _ | .or3 z _ _ | .xor3 z _ _ => [z]
  | .popall => [0, 1, 2, 3, 4, 5, 6, 7, 8, 9, 10, 11, 12, 13, 14, 15]
  | .nop | .cls | .vblnk | .bgc _ | .spr _ _ | .drw _ _ _ | .drwR _ _ _ | .flip _ _ | .snd0 | .snd1 _ | .snd2 _ => []
  | .snd3 _ | .snp _ _ | .sng _ _ | .jmp _ | .jcc _ _ | .jme _ _ _ | .call _ | .ret | .jmpR _ | .callcc _ _ => []
  | .callR _ | .ldiSp _ | .stm _ _ | .stmRr _ _ | .cmpi _ _ | .cmp _ _ | .tsti _ _ | .tst _ _ | .push _ => []
  | .pushall | .pushf | .popf | .pal _ | .palR _ => []

/-- The bytes an instruction stores to in a state: the addresses its rule gives (R59: the 16-bit writes). A conditional
call is counted as storing, whether or not it is taken. -/
def Instr.stores (i : Instr) (s : State) : List Word :=
  match i with
  | .stm _ a => storedAt a
  | .stmRr _ y => storedAt (s.reg y)
  | .push _ | .pushf | .call _ | .callR _ | .callcc _ _ => storedAt s.sp
  | .pushall => savedBlock s.sp
  | .nop | .cls | .vblnk | .bgc _ | .spr _ _ | .drw _ _ _ | .drwR _ _ _ | .rnd _ _ | .flip _ _ | .snd0 => []
  | .snd1 _ | .snd2 _ | .snd3 _ | .snp _ _ | .sng _ _ | .jmp _ | .jcc _ _ | .jme _ _ _ | .ret | .jmpR _ => []
  | .ldi _ _ | .ldiSp _ | .ldm _ _ | .ldmRr _ _ | .addi _ _ | .add _ _ | .add3 _ _ _ | .subi _ _ | .sub _ _ => []
  | .sub3 _ _ _ | .cmpi _ _ | .cmp _ _ | .andi _ _ | .and _ _ | .and3 _ _ _ | .tsti _ _ | .tst _ _ | .ori _ _ => []
  | .or _ _ | .or3 _ _ _ | .xori _ _ | .xor _ _ | .xor3 _ _ _ | .muli _ _ | .mul _ _ | .mul3 _ _ _ | .divi _ _ => []
  | .div _ _ | .div3 _ _ _ | .modi _ _ | .mod _ _ | .mod3 _ _ _ | .shl _ _ | .shr _ _ | .pop _ | .popall => []
  | .popf | .pal _ | .palR _ | .noti _ _ | .notR _ | .notRr _ _ | .negi _ _ | .negR _ | .negRr _ _ => []

/-- The forms that read or write `sp` (R28). -/
def Form.usesSp : Form → Bool
  | .ldiSp | .call | .callcc | .callR | .ret | .push | .pop | .pushall | .popall | .pushf | .popf => true
  | _ => false

/-- The handlers that may set `pc` (R25): every other instruction advances by 4. -/
def Form.setsPc : Form → Bool
  | .jmp | .jcc | .jme | .call | .ret | .jmpR | .callcc | .callR | .vblnk => true
  | _ => false

/-- The sixteen palette writes of `load_palette(a)`: entry `k` is the three bytes from `a + 3*k` up (R272). -/
def paletteWrites (s : State) (a : Word) : List PortCall := List.ofFn fun k : Fin 16 =>
  let e := a + BitVec.ofNat 16 (3 * k.val)
  .gpuPalette k (s.read8 e) (s.read8 (e + 1)) (s.read8 (e + 2))

/-- The port calls an instruction makes in a state, in order (R251, R252, R253 and the rules R255 to R272). -/
def Instr.portCalls (i : Instr) (s : State) : List PortCall :=
  match i with
  | .cls => [.gpuClearFg, .gpuClearBg]
  | .vblnk => [.gpuVblank]
  | .bgc n => [.gpuBg n]
  | .spr w h => [.gpuSpriteW w, .gpuSpriteH h]
  | .drw x y a => [.gpuDraw a (s.reg x) (s.reg y)]
  | .drwR z x y => [.gpuDraw (wordAt s (s.reg z)) (s.reg x) (s.reg y)]
  | .rnd _ m => [.rngNextInRange m]
  | .flip h v => [.gpuHflip h, .gpuVflip v]
  | .snd0 => [.spuStop]
  | .snd1 d => [.spuPlayFixed 500 d]
  | .snd2 d => [.spuPlayFixed 1000 d]
  | .snd3 d => [.spuPlayFixed 1500 d]
  | .snp x d => [.spuPlayTone (wordAt s (s.reg x)) d]
  | .sng ad w => [.spuSetup ad w]
  | .pal a => paletteWrites s a
  | .palR x => paletteWrites s (s.reg x)
  | .nop | .jmp _ | .jcc _ _ | .jme _ _ _ | .call _ | .ret | .jmpR _ | .callcc _ _ | .callR _ | .ldi _ _ => []
  | .ldiSp _ | .ldm _ _ | .ldmRr _ _ | .stm _ _ | .stmRr _ _ | .addi _ _ | .add _ _ | .add3 _ _ _ | .subi _ _ => []
  | .sub _ _ | .sub3 _ _ _ | .cmpi _ _ | .cmp _ _ | .andi _ _ | .and _ _ | .and3 _ _ _ | .tsti _ _ | .tst _ _ => []
  | .ori _ _ | .or _ _ | .or3 _ _ _ | .xori _ _ | .xor _ _ | .xor3 _ _ _ | .muli _ _ | .mul _ _ | .mul3 _ _ _ => []
  | .divi _ _ | .div _ _ | .div3 _ _ _ | .modi _ _ | .mod _ _ | .mod3 _ _ _ | .shl _ _ | .shr _ _ | .push _ => []
  | .pop _ | .pushall | .popall | .pushf | .popf | .noti _ _ | .notR _ | .notRr _ _ | .negi _ _ | .negR _ => []
  | .negRr _ _ => []

/-- The divisor of a DIV or MOD form (R292). -/
def Instr.divisor (i : Instr) (s : State) : Option Word :=
  match i with
  | .divi _ v | .modi _ v => some v
  | .div _ y | .mod _ y | .div3 _ _ y | .mod3 _ _ y => some (s.reg y)
  | .nop | .cls | .vblnk | .bgc _ | .spr _ _ | .drw _ _ _ | .drwR _ _ _ | .rnd _ _ | .flip _ _ | .snd0 => none
  | .snd1 _ | .snd2 _ | .snd3 _ | .snp _ _ | .sng _ _ | .jmp _ | .jcc _ _ | .jme _ _ _ | .call _ | .ret => none
  | .jmpR _ | .callcc _ _ | .callR _ | .ldi _ _ | .ldiSp _ | .ldm _ _ | .ldmRr _ _ | .stm _ _ | .stmRr _ _ => none
  | .addi _ _ | .add _ _ | .add3 _ _ _ | .subi _ _ | .sub _ _ | .sub3 _ _ _ | .cmpi _ _ | .cmp _ _ | .andi _ _ => none
  | .and _ _ | .and3 _ _ _ | .tsti _ _ | .tst _ _ | .ori _ _ | .or _ _ | .or3 _ _ _ | .xori _ _ | .xor _ _ => none
  | .xor3 _ _ _ | .muli _ _ | .mul _ _ | .mul3 _ _ _ | .shl _ _ | .shr _ _ | .push _ | .pop _ | .pushall => none
  | .popall | .pushf | .popf | .pal _ | .palR _ | .noti _ _ | .notR _ | .notRr _ _ | .negi _ _ | .negR _ => none
  | .negRr _ _ => none

/-- The condition of Jcc or CALLcc (R294). -/
def Instr.condition : Instr → Option Cond
  | .jcc c _ | .callcc c _ => some c
  | .nop | .cls | .vblnk | .bgc _ | .spr _ _ | .drw _ _ _ | .drwR _ _ _ | .rnd _ _ | .flip _ _ | .snd0 => none
  | .snd1 _ | .snd2 _ | .snd3 _ | .snp _ _ | .sng _ _ | .jmp _ | .jme _ _ _ | .call _ | .ret | .jmpR _ => none
  | .callR _ | .ldi _ _ | .ldiSp _ | .ldm _ _ | .ldmRr _ _ | .stm _ _ | .stmRr _ _ | .addi _ _ | .add _ _ => none
  | .add3 _ _ _ | .subi _ _ | .sub _ _ | .sub3 _ _ _ | .cmpi _ _ | .cmp _ _ | .andi _ _ | .and _ _ => none
  | .and3 _ _ _ | .tsti _ _ | .tst _ _ | .ori _ _ | .or _ _ | .or3 _ _ _ | .xori _ _ | .xor _ _ | .xor3 _ _ _ => none
  | .muli _ _ | .mul _ _ | .mul3 _ _ _ | .divi _ _ | .div _ _ | .div3 _ _ _ | .modi _ _ | .mod _ _ => none
  | .mod3 _ _ _ | .shl _ _ | .shr _ _ | .push _ | .pop _ | .pushall | .popall | .pushf | .popf | .pal _ => none
  | .palR _ | .noti _ _ | .notR _ | .notRr _ _ | .negi _ _ | .negR _ | .negRr _ _ => none

/-- The bytes that are no opcode, as the ranges R80 lists them. -/
def invalidOpcodeRange (op : Byte) : Bool :=
  let n := op.toNat
  n == 0x0F || n == 0x11 || (0x19 ≤ n && n ≤ 0x1F) || (0x24 ≤ n && n ≤ 0x2F) || (0x32 ≤ n && n ≤ 0x3F) ||
    (0x43 ≤ n && n ≤ 0x4F) || (0x55 ≤ n && n ≤ 0x5F) || (0x65 ≤ n && n ≤ 0x6F) || (0x73 ≤ n && n ≤ 0x7F) ||
    (0x83 ≤ n && n ≤ 0x8F) || (0x93 ≤ n && n ≤ 0x9F) || (0xA6 ≤ n && n ≤ 0xAF) || (0xB2 ≤ n && n ≤ 0xBF) ||
    (0xC6 ≤ n && n ≤ 0xCF) || (0xD2 ≤ n && n ≤ 0xDF) || 0xE6 ≤ n

end Sys2Proof
end

