-- ==== Sys2Proof/Certificates/Slice0/Obligations.lean ====
section
/-! DEFINITION. The statements for the provers. Each docstring names the rule it comes from; statements that rest on a
decision the spec marks as its own, or on a choice of the model, say so and name it. -/

open Sys2Proof Sys2Proof.Machine

/-! ## Encoding -/

/-- Decoding what the encoder wrote gives the instruction back, with every operand at every value, whatever bytes
follow. (30_encoding.md R72, R74, R78; the opcode bytes are the spec's decision D1, log 1.) -/
def Obligations.DecodeOfEncodeIsTheInstruction : Prop :=
  ∀ (i : Instr) (rest : List Byte), decode (encode i ++ rest) = .ok (i, rest)

/-- Encoding what was decoded gives the word back with the bits its format does not read set to 0: each canonical word
has one meaning. (R74, R76; D10, log 10.) -/
def Obligations.EncodeOfDecodeIsTheCanonicalWord : Prop :=
  ∀ (w : Fields) (i : Instr), decodeFields w = .ok i → i.fields = w.canonical i.form

/-- Bits of the instruction that a format does not read are ignored, and an assembler writes them 0.
(R76; the spec's decision D10, log 10.) -/
def Obligations.UnreadBitsAreIgnored : Prop :=
  (∀ (w w' : Fields) (f : Form), formOf w.op = some f → w.canonical f = w'.canonical f →
    decodeFields w' = decodeFields w) ∧
  ∀ i : Instr, i.fields.canonical i.form = i.fields

/-- There are 73 forms with distinct bytes, and a byte has no handler exactly where it lies in the ranges R80 lists:
183 bytes. (R78, R79, R80; the byte values are the spec's decision D1, log 1.) -/
def Obligations.InvalidOpcodesAreTheListedRanges : Prop :=
  Form.all.length = 73 ∧
  (∀ f g : Form, params.opcodeMap f = params.opcodeMap g → f = g) ∧
  (∀ op : Byte, formOf op = none ↔ invalidOpcodeRange op = true) ∧
  ((List.range 256).filter fun n => invalidOpcodeRange (BitVec.ofNat 8 n)).length = 183

/-- Words written out as `W` of R73 in hexadecimal, at least one for each of the 13 formats of R74: from the "bytes" column
of R78 with operands filled in, except 0x0300F500 (unread bits set), which is vector P.6, and 0x24210000 (an invalid
opcode), which is vector E.6. (The opcode bytes are the spec's decision D1, log 1; the numbering of `W`'s bits is
log 23.) -/
def Obligations.SampleWordsDecode : Prop :=
  decodeTableWord 32 0x00000000 = some .nop ∧
  decodeTableWord 32 0x15000000 = some .ret ∧
  decodeTableWord 32 0xC2000000 = some .pushall ∧
  decodeTableWord 32 0x16030000 = some (.jmpR 3) ∧
  decodeTableWord 32 0xC00F0000 = some (.push 15) ∧
  decodeTableWord 32 0xE1010000 = some (.notR 1) ∧
  decodeTableWord 32 0x40010300 = some (.addi 1 0x0003) ∧
  decodeTableWord 32 0x92210300 = some (.mul3 3 1 2) ∧
  decodeTableWord 32 0xA4210000 = some (.mod 1 2) ∧
  decodeTableWord 32 0x1400BB10 = some (.call 0x10BB) ∧
  decodeTableWord 32 0x120B0002 = some (.jcc .g 0x0200) ∧
  decodeTableWord 32 0x13214000 = some (.jme 1 2 0x0040) ∧
  decodeTableWord 32 0xB10D0F00 = some (.shr 13 15) ∧
  decodeTableWord 32 0x04000208 = some (.spr 0x02 0x08) ∧
  decodeTableWord 32 0x0E123456 = some (.sng 0x12 0x5634) ∧
  decodeTableWord 32 0x08000002 = some (.flip true false) ∧
  decodeTableWord 32 0x23210000 = some (.ldmRr 1 2) ∧
  decodeTableWord 32 0x0300F500 = some (.bgc 5) ∧
  decodeTableWord 32 0x24210000 = none

/-! ## The step -/

/-- A step of a core with no latched fault runs the instruction its four bytes decode to: a next state of `exec` is the
step's with one more cycle, a fault of `exec` is the step's. (70_reset_and_hazards.md R325.) -/
def Obligations.StepRunsTheDecodedInstruction : Prop :=
  ∀ (s : State) (i : Instr), s.fault = none →
    decodeFields ⟨s.read8 s.pc, s.read8 (s.pc + 1), s.read8 (s.pc + 2), s.read8 (s.pc + 3)⟩ = .ok i →
    (∀ t, exec i s = .next t → step s = .next { t with cycles := s.cycles + 1 }) ∧
    (∀ f, exec i s = .fault f → step s = .fault f)

/-- An instruction whose bytes are stored at `pc`, also across 0xFFFF, is the one the next step runs: a store is seen by
the next fetch. (20_memory.md R57, R64, 70_reset_and_hazards.md R325; the wrap is D12, log 12.) -/
def Obligations.PlacedInstructionIsTheOneThatRuns : Prop :=
  ∀ (s : State) (i : Instr), s.fault = none →
    let s' := s.place s.pc i.fields
    (∀ t, exec i s' = .next t → step s' = .next { t with cycles := s.cycles + 1 }) ∧
    (∀ f, exec i s' = .fault f → step s' = .fault f)

/-- An opcode byte with no handler faults at dispatch, before anything is written, and only byte 0 is examined.
(60_exceptions.md R291.) -/
def Obligations.InvalidOpcodeFaultsAtDispatch : Prop :=
  ∀ s : State, s.fault = none →
    ((∀ f : Form, params.opcodeMap f ≠ s.read8 s.pc) →
      step s = .fault (.invalidOpcode s.pc (s.read8 s.pc)) ∧
      RegsKeptBut [] s s.requestStep ∧ MemKeptBut [] s s.requestStep ∧ s.requestStep.flags = s.flags ∧
      s.requestStep.sp = s.sp ∧ s.requestStep.pc = s.pc) ∧
    ((∃ f : Form, params.opcodeMap f = s.read8 s.pc) →
      ∀ op, step s ≠ .fault (.invalidOpcode s.pc op))

/-! ## Reset and runs -/

/-- Reset puts every piece of state at its value, whatever it was before. (R320; the number `STACK_ORIGIN` is the
parameter `params.stackOrigin`, D2, log 2.) -/
def Obligations.ResetGivesEveryFieldItsValue : Prop :=
  ∀ s : State, let t := hostAct .reset s
    (∀ i, t.reg i = 0) ∧ t.pc = 0 ∧ t.sp = params.stackOrigin ∧
    t.flags.c = false ∧ t.flags.z = false ∧ t.flags.o = false ∧ t.flags.n = false ∧
    t.cycles = 0 ∧ t.fault = none ∧ ∀ a, t.read8 a = 0

/-- After reset and the host's image, each byte of the image reads as written and every other byte as 0.
(20_memory.md R52, R322; the spec's decision D19, log 18.) -/
def Obligations.LaunchedImageIsRead : Prop :=
  ∀ image : List (Word × Byte), (image.map Prod.fst).Nodup →
    (∀ a v, (a, v) ∈ image → (State.launch image).read8 a = v) ∧
    (∀ a, a ∉ image.map Prod.fst → (State.launch image).read8 a = 0) ∧
    (State.launch image).pc = 0 ∧ (State.launch image).Inv

/-- The invariant of a running machine holds at reset: memory in canonical form, and no fault latched. (R36, R52; that
memory is a list in a canonical form is the model's choice, log 18.) -/
def Obligations.InvariantHoldsAtReset : Prop := State.reset.Inv

/-- Every step keeps the invariant: memory stays in canonical form and no completed step latches a fault. (R36, R50,
R295; the canonical form is the model's, log 18.) -/
def Obligations.InvariantKeptByEveryStep : Prop :=
  ∀ s t : State, s.Inv → step s = .next t → t.Inv

/-- Canonical memories that read alike at every address are the same memory. (R50; the canonical form is the model's,
log 18.) -/
def Obligations.CanonicalMemoriesThatReadAlikeAreEqual : Prop :=
  ∀ m m' : Memory, m.wf = true → m'.wf = true → (∀ a : Word, m.read8 a = m'.read8 a) → m = m'

/-- A final state, whose `pc` points at a JMP to its own address, repeats for ever with only `cycles` changing; a state
with a latched fault is never final. (42_control_flow.md R131, R25, R324, 60_exceptions.md R295; the reading of a jump to
itself is D11, log 11, "final" is D25, log 26, and the faulted state is D9, log 9.) -/
def Obligations.FinalStatesOnlyCountCycles : Prop :=
  (∀ s : State, s.Final →
    step s = .next { s with cycles := s.cycles + 1 } ∧ State.Final { s with cycles := s.cycles + 1 }) ∧
  ∀ (s : State) (f : Fault), s.fault = some f → ¬ s.Final

/-! ## Whole-machine rules -/

/-- Every completed step counts one cycle, whatever the opcode, and no instruction reads, writes or resets the counter.
(60_exceptions.md R300, R35; the counter is unbounded by D13, log 13.) -/
def Obligations.CyclesCountStepsAndAreInvisible : Prop :=
  (∀ s t : State, step s = .next t → t.cycles = s.cycles + 1) ∧
  ∀ (i : Instr) (s : State) (n : Nat),
    exec i { s with cycles := n } = Result.andThen (exec i s) fun t => .next { t with cycles := n }

/-- No instruction writes a flag the table of R31 does not give it. (10_state.md R31; for the families whose rule names
no more flags this is the spec's decision D6, log 6.) -/
def Obligations.OnlyNamedFlagsAreWritten : Prop :=
  ∀ (i : Instr) (s t : State), exec i s = .next t →
    (i.form.writesC = false → t.flags.c = s.flags.c) ∧
    (i.form.writesO = false → t.flags.o = s.flags.o) ∧
    (i.form.writesZN = false → t.flags.z = s.flags.z ∧ t.flags.n = s.flags.n)

/-- No instruction writes a register R22 does not give it. (10_state.md R22, which the spec marks as derived.) -/
def Obligations.OnlyNamedRegistersAreWritten : Prop :=
  ∀ (i : Instr) (s t : State), exec i s = .next t → RegsKeptBut i.writesRegs s t

/-- No instruction writes a byte of memory but those its store, push or call names. (20_memory.md R59, R61.) -/
def Obligations.OnlyNamedBytesAreStored : Prop :=
  ∀ (i : Instr) (s t : State), exec i s = .next t → MemKeptBut (i.stores s) s t

/-- `sp` is read and written only by the instructions R28 lists: every other one leaves it and works the same whatever it
holds. (10_state.md R28.) -/
def Obligations.OnlyStackInstructionsUseSp : Prop :=
  ∀ (i : Instr) (s : State), i.form.usesSp = false →
    (∀ t, exec i s = .next t → t.sp = s.sp) ∧
    ∀ v, exec i { s with sp := v } = Result.andThen (exec i s) fun t => .next { t with sp := v }

/-- Every instruction but the nine R25 lists ends with `pc` advanced by 4, modulo 0x10000. (10_state.md R25, R26;
D11, log 11.) -/
def Obligations.OtherInstructionsAdvanceByFour : Prop :=
  ∀ (i : Instr) (s t : State), i.form.setsPc = false → exec i s = .next t → t.pc = s.pc + 4

/-- What an instruction sends on the ports is exactly its port calls, in order. (47_peripheral.md R250 to R253,
70_reset_and_hazards.md R328; the record of calls is the model's field, log 16, the order inside CLS, SPR, FLIP and PAL
is D22, log 20, and the addresses PAL RX and DRW RZ,RX,RY send from are the spec's decisions D15 and D16, log 17.) -/
def Obligations.PortCallsAreThoseOfTheInstruction : Prop :=
  ∀ (i : Instr) (s t : State), exec i s = .next t → t.portLog = s.portLog ++ i.portCalls s

/-- Every instruction completes unless its divisor is 0, its condition is code 15, or one of its port calls fails.
(60_exceptions.md R290; code 15 is D3, log 3; failing ports are D21, log 15.) -/
def Obligations.EveryInstructionCompletes : Prop :=
  ∀ (i : Instr) (s : State), i.divisor s ≠ some 0 → i.condition ≠ some .reserved →
    s.PortsHealthy (i.portCalls s).length → ∃ t, exec i s = .next t

/-- An instruction faults exactly by one of the three causes left after dispatch, with what the fault records, and no
instruction is refused. (60_exceptions.md R290, R293, R297; names by D23, log 21; code 15 by D3, log 3. In the third
cause, which call fails is an input of the model, log 15, the calls it records are log 16 in the order of D22, log 20,
and the palette bytes of a failing PAL RX are read at the address D15 decides, log 17.) -/
def Obligations.FaultsHaveExactlyTheirCauses : Prop :=
  ∀ (i : Instr) (s : State),
    (∀ f, exec i s = .fault f ↔
      (i.divisor s = some 0 ∧ f = .divisionByZero s.pc) ∨
      (i.condition = some .reserved ∧ f = .reservedCondition s.pc) ∨
      ∃ k e, k < (i.portCalls s).length ∧ s.PortFailsAt k e ∧
        f = .peripheralFailure s.pc e ((i.portCalls s).take k)) ∧
    ∀ r, exec i s ≠ .refused r

/-- A faulting step writes no register, flag, `sp`, memory byte or `pc`; the latch takes the fault and the status goes from
0 to its code (1 invalid opcode, 2 division by zero, 3 peripheral failure, 4 reserved condition); the core executes
nothing further, and its state is never final. (60_exceptions.md R295, R290, R36; the effect of a fault is the spec's
decision D9, log 9, the codes are its decision D23, log 21, and "final" is D25, log 26.) -/
def Obligations.FaultingStepWritesNothingAndIsTerminal : Prop :=
  ∀ (s : State) (f : Fault), step s = .fault f →
    let t := s.requestStep
    t.regs = s.regs ∧ t.pc = s.pc ∧ t.sp = s.sp ∧ t.flags = s.flags ∧ t.mem = s.mem ∧
    t.fault = some f ∧ s.status = 0 ∧
    t.status = (match f with
      | .invalidOpcode _ _ => 1
      | .divisionByZero _ => 2
      | .peripheralFailure _ _ _ => 3
      | .reservedCondition _ => 4) ∧
    step t = .refused (.coreFaulted f) ∧ t.requestStep = t ∧ ¬ t.Final

/-! ## Memory and stack -/

/-- Every 16-bit data access and the immediate are little-endian, at every address, and after a word is written its
bytes and the word read back; no other byte changes. (20_memory.md R58.) -/
def Obligations.WordsAreLittleEndian : Prop :=
  (∀ (s : State) (a v : Word),
    HoldsWord (s.write16 a v) a v ∧ (s.write16 a v).read16 a = v ∧ MemKeptBut (storedAt a) s (s.write16 a v)) ∧
  (∀ (s : State) (a : Word), s.read16 a = wordAt s a) ∧
  ∀ op yx ll hh : Byte, (Fields.hhll ⟨op, yx, ll, hh⟩).toNat = ll.toNat + 256 * hh.toNat

/-- `push16` stores at `sp` and adds 2; `pop16` subtracts 2 and reads there; a push and a pop give the value back and
restore `sp`; the calls push the address after them and RET pops. (46_stack.md R231.) -/
def Obligations.PushAndPopAreInverse : Prop :=
  (∀ (s : State) (v : Word),
    HoldsWord (s.push16 v) s.sp v ∧ MemKeptBut (storedAt s.sp) s (s.push16 v) ∧ (s.push16 v).sp = s.sp + 2 ∧
    s.popped = wordAt s (s.sp - 2) ∧ s.dropSlot = { s with sp := s.sp - 2 } ∧
    (s.push16 v).popped = v ∧ (s.push16 v).dropSlot.sp = s.sp) ∧
  (∀ (s : State) (target : Word) (x : RegIdx) (c : Cond), evalCond c s.flags = some true →
    exec (.call target) s = .next { s.push16 (s.pc + 4) with pc := target } ∧
    exec (.callR x) s = .next { s.push16 (s.pc + 4) with pc := s.reg x } ∧
    exec (.callcc c target) s = .next { s.push16 (s.pc + 4) with pc := target }) ∧
  ∀ s : State, exec .ret s = .next { s.dropSlot with pc := s.popped }

/-! ## Arithmetic -/

/-- ADDI and both ADD forms: the truncated sum, with all four flags; `O` is signed overflow. Nothing else changes.
(43_arithmetic.md R150.) -/
def Obligations.AddFormsAddWithAllFlags : Prop :=
  ∀ (s : State) (x y z : RegIdx) (imm : Word),
    (∃ t, exec (.addi x imm) s = .next t ∧ AddEffect (s.reg x) imm (t.reg x) t.flags ∧ AluFrame (some x) s t) ∧
    (∃ t, exec (.add x y) s = .next t ∧ AddEffect (s.reg x) (s.reg y) (t.reg x) t.flags ∧ AluFrame (some x) s t) ∧
    (∃ t, exec (.add3 z x y) s = .next t ∧ AddEffect (s.reg x) (s.reg y) (t.reg z) t.flags ∧ AluFrame (some z) s t)

/-- SUBI, both SUB forms, CMPI and CMP: the truncated difference, with all four flags; `C` is "no borrow"; the compare
forms discard the difference. Nothing else changes. (43_arithmetic.md R151.) -/
def Obligations.SubtractFormsSetNoBorrowCarry : Prop :=
  ∀ (s : State) (x y z : RegIdx) (imm : Word),
    (∃ t, exec (.subi x imm) s = .next t ∧ SubEffect (s.reg x) imm (t.reg x) t.flags ∧ AluFrame (some x) s t) ∧
    (∃ t, exec (.sub x y) s = .next t ∧ SubEffect (s.reg x) (s.reg y) (t.reg x) t.flags ∧ AluFrame (some x) s t) ∧
    (∃ t, exec (.sub3 z x y) s = .next t ∧ SubEffect (s.reg x) (s.reg y) (t.reg z) t.flags ∧ AluFrame (some z) s t) ∧
    (∃ t, exec (.cmpi x imm) s = .next t ∧ (∃ r, SubEffect (s.reg x) imm r t.flags) ∧ AluFrame none s t) ∧
    (∃ t, exec (.cmp x y) s = .next t ∧ (∃ r, SubEffect (s.reg x) (s.reg y) r t.flags) ∧ AluFrame none s t)

/-- After `CMP a,b` the ten comparison conditions hold exactly when their names are true of `a` and `b`, unsigned for
A, AE, B, BE and signed for G, GE, L, LE. (40_conditions.md R101, R102; the formulas of the signed conditions are
derived by the spec, D4, log 4.) -/
def Obligations.ConditionsAfterCompareMeanTheirNames : Prop :=
  ∀ (s t : State) (x y : RegIdx), exec (.cmp x y) s = .next t →
    let a := s.reg x
    let b := s.reg y
    evalCond .z t.flags = some (decide (a = b)) ∧ evalCond .nz t.flags = some (decide (a ≠ b)) ∧
    evalCond .a t.flags = some (decide (b.toNat < a.toNat)) ∧ evalCond .ae t.flags = some (decide (b.toNat ≤ a.toNat)) ∧
    evalCond .b t.flags = some (decide (a.toNat < b.toNat)) ∧ evalCond .be t.flags = some (decide (a.toNat ≤ b.toNat)) ∧
    evalCond .g t.flags = some (decide (signed16 b < signed16 a)) ∧
    evalCond .ge t.flags = some (decide (signed16 b ≤ signed16 a)) ∧
    evalCond .l t.flags = some (decide (signed16 a < signed16 b)) ∧
    evalCond .le t.flags = some (decide (signed16 a ≤ signed16 b))

/-- MULI and both MUL forms: the low half of the unsigned product; `C` is "the upper half is not 0", `N` is bit 31 of
the product, `O` is kept. Nothing else changes. (43_arithmetic.md R152; that `O` is kept is the spec's decision D6,
log 6.) -/
def Obligations.MultiplyFormsKeepTheLowHalf : Prop :=
  ∀ (s : State) (x y z : RegIdx) (imm : Word),
    (∃ t, exec (.muli x imm) s = .next t ∧ MulEffect (s.reg x) imm (t.reg x) s.flags t.flags ∧
      AluFrame (some x) s t) ∧
    (∃ t, exec (.mul x y) s = .next t ∧ MulEffect (s.reg x) (s.reg y) (t.reg x) s.flags t.flags ∧
      AluFrame (some x) s t) ∧
    (∃ t, exec (.mul3 z x y) s = .next t ∧ MulEffect (s.reg x) (s.reg y) (t.reg z) s.flags t.flags ∧
      AluFrame (some z) s t)

/-- DIVI and both DIV forms by a divisor that is not 0: the unsigned quotient; `C` is "inexact", `O` is kept. Nothing else
changes. (43_arithmetic.md R153; unsigned is the spec's decision D5, log 5, and `O` kept its decision D6, log 6.) -/
def Obligations.DivideFormsGiveTheQuotient : Prop :=
  ∀ (s : State) (x y z : RegIdx) (imm : Word),
    (imm ≠ 0 → ∃ t, exec (.divi x imm) s = .next t ∧ DivEffect (s.reg x) imm (t.reg x) s.flags t.flags ∧
      AluFrame (some x) s t) ∧
    (s.reg y ≠ 0 → ∃ t, exec (.div x y) s = .next t ∧ DivEffect (s.reg x) (s.reg y) (t.reg x) s.flags t.flags ∧
      AluFrame (some x) s t) ∧
    (s.reg y ≠ 0 → ∃ t, exec (.div3 z x y) s = .next t ∧ DivEffect (s.reg x) (s.reg y) (t.reg z) s.flags t.flags ∧
      AluFrame (some z) s t)

/-- MODI and both MOD forms by a divisor that is not 0: the unsigned remainder, with `C` the complement of `Z`; `O` is
kept. Nothing else changes. (43_arithmetic.md R154; D5, log 5; D6, log 6.) -/
def Obligations.ModuloFormsGiveTheRemainder : Prop :=
  ∀ (s : State) (x y z : RegIdx) (imm : Word),
    (imm ≠ 0 → ∃ t, exec (.modi x imm) s = .next t ∧ ModEffect (s.reg x) imm (t.reg x) s.flags t.flags ∧
      t.flags.c = !t.flags.z ∧ AluFrame (some x) s t) ∧
    (s.reg y ≠ 0 → ∃ t, exec (.mod x y) s = .next t ∧ ModEffect (s.reg x) (s.reg y) (t.reg x) s.flags t.flags ∧
      t.flags.c = !t.flags.z ∧ AluFrame (some x) s t) ∧
    (s.reg y ≠ 0 → ∃ t, exec (.mod3 z x y) s = .next t ∧ ModEffect (s.reg x) (s.reg y) (t.reg z) s.flags t.flags ∧
      t.flags.c = !t.flags.z ∧ AluFrame (some z) s t)

/-- A DIV or MOD form with divisor 0 faults whatever the dividend, and every register and every flag keeps its value in
the state the host then sees. (60_exceptions.md R292.) -/
def Obligations.DivisionByZeroFaultsBeforeAnyWrite : Prop :=
  ∀ (s : State) (i : Instr), i.divisor s = some 0 →
    exec i s = .fault (.divisionByZero s.pc) ∧
    (s.fault = none → decodeFields s.fetch = .ok i →
      RegsKeptBut [] s s.requestStep ∧ s.requestStep.flags = s.flags)

/-! ## Logic, shifts, unary -/

/-- AND, OR, XOR in their three shapes and TST in its two: bit by bit, `Z` and `N` from the result, `C` and `O` left.
Nothing else changes. (44_logic.md R190.) -/
def Obligations.LogicFormsWorkBitByBit : Prop :=
  ∀ (s : State) (x y z : RegIdx) (imm : Word),
    (∃ t, exec (.andi x imm) s = .next t ∧ LogicEffect and (s.reg x) imm (t.reg x) s.flags t.flags ∧
      AluFrame (some x) s t) ∧
    (∃ t, exec (.and x y) s = .next t ∧ LogicEffect and (s.reg x) (s.reg y) (t.reg x) s.flags t.flags ∧
      AluFrame (some x) s t) ∧
    (∃ t, exec (.and3 z x y) s = .next t ∧ LogicEffect and (s.reg x) (s.reg y) (t.reg z) s.flags t.flags ∧
      AluFrame (some z) s t) ∧
    (∃ t, exec (.ori x imm) s = .next t ∧ LogicEffect or (s.reg x) imm (t.reg x) s.flags t.flags ∧
      AluFrame (some x) s t) ∧
    (∃ t, exec (.or x y) s = .next t ∧ LogicEffect or (s.reg x) (s.reg y) (t.reg x) s.flags t.flags ∧
      AluFrame (some x) s t) ∧
    (∃ t, exec (.or3 z x y) s = .next t ∧ LogicEffect or (s.reg x) (s.reg y) (t.reg z) s.flags t.flags ∧
      AluFrame (some z) s t) ∧
    (∃ t, exec (.xori x imm) s = .next t ∧ LogicEffect xor (s.reg x) imm (t.reg x) s.flags t.flags ∧
      AluFrame (some x) s t) ∧
    (∃ t, exec (.xor x y) s = .next t ∧ LogicEffect xor (s.reg x) (s.reg y) (t.reg x) s.flags t.flags ∧
      AluFrame (some x) s t) ∧
    (∃ t, exec (.xor3 z x y) s = .next t ∧ LogicEffect xor (s.reg x) (s.reg y) (t.reg z) s.flags t.flags ∧
      AluFrame (some z) s t) ∧
    (∃ t, exec (.tsti x imm) s = .next t ∧ (∃ r, LogicEffect and (s.reg x) imm r s.flags t.flags) ∧
      AluFrame none s t) ∧
    (∃ t, exec (.tst x y) s = .next t ∧ (∃ r, LogicEffect and (s.reg x) (s.reg y) r s.flags t.flags) ∧
      AluFrame none s t)

/-- SHL and SHR by 0 to 15: logical shifts, `Z` and `N` from the result also for a count of 0, `C` and `O` left. Nothing
else changes. (45_shift_unary.md R210, R211, R212; that `C` and `O` are left is the spec's decision D6, log 6.) -/
def Obligations.ShiftsAreLogical : Prop :=
  ∀ (s : State) (x : RegIdx) (n : Nibble),
    (∃ t, exec (.shl x n) s = .next t ∧
      UnaryEffect ((s.reg x).toNat * 2 ^ n.toNat % 65536) (t.reg x) s.flags t.flags ∧ AluFrame (some x) s t) ∧
    (∃ t, exec (.shr x n) s = .next t ∧
      UnaryEffect ((s.reg x).toNat / 2 ^ n.toNat) (t.reg x) s.flags t.flags ∧ AluFrame (some x) s t)

/-- NOT and NEG in their three shapes: 65535 - v, and 0 - v modulo 0x10000; `Z` and `N` from the result, `C` and `O` left.
Nothing else changes. (45_shift_unary.md R213 to R219; that `C` and `O` are left is the spec's decision D6, log 6.) -/
def Obligations.UnaryFormsInvertAndNegate : Prop :=
  ∀ (s : State) (x y : RegIdx) (imm : Word),
    (∃ t, exec (.noti x imm) s = .next t ∧ UnaryEffect (65535 - imm.toNat) (t.reg x) s.flags t.flags ∧
      AluFrame (some x) s t) ∧
    (∃ t, exec (.notR x) s = .next t ∧ UnaryEffect (65535 - (s.reg x).toNat) (t.reg x) s.flags t.flags ∧
      AluFrame (some x) s t) ∧
    (∃ t, exec (.notRr x y) s = .next t ∧ UnaryEffect (65535 - (s.reg y).toNat) (t.reg x) s.flags t.flags ∧
      AluFrame (some x) s t) ∧
    (∃ t, exec (.negi x imm) s = .next t ∧
      UnaryEffect ((65536 - imm.toNat) % 65536) (t.reg x) s.flags t.flags ∧ AluFrame (some x) s t) ∧
    (∃ t, exec (.negR x) s = .next t ∧
      UnaryEffect ((65536 - (s.reg x).toNat) % 65536) (t.reg x) s.flags t.flags ∧ AluFrame (some x) s t) ∧
    (∃ t, exec (.negRr x y) s = .next t ∧
      UnaryEffect ((65536 - (s.reg y).toNat) % 65536) (t.reg x) s.flags t.flags ∧ AluFrame (some x) s t)

/-! ## Data movement -/

/-- LDI RX, LDI SP and both LDM forms: the immediate, or the little-endian word at the address, which is read before the
register is overwritten. No flag and no byte of memory changes. (41_data_movement.md R120 to R124.) -/
def Obligations.LoadsWriteOneRegister : Prop :=
  ∀ (s : State) (x y : RegIdx) (imm : Word),
    (∃ t, exec (.ldi x imm) s = .next t ∧ t.reg x = imm ∧ t.flags = s.flags ∧ AluFrame (some x) s t) ∧
    (∃ t, exec (.ldiSp imm) s = .next t ∧ t.sp = imm ∧ t.flags = s.flags ∧ RegsKeptBut [] s t ∧ MemKeptBut [] s t ∧
      t.pc = s.pc + 4 ∧ PortsQuiet s t) ∧
    (∃ t, exec (.ldm x imm) s = .next t ∧ t.reg x = wordAt s imm ∧ t.flags = s.flags ∧ AluFrame (some x) s t) ∧
    (∃ t, exec (.ldmRr x y) s = .next t ∧ t.reg x = wordAt s (s.reg y) ∧ t.flags = s.flags ∧ AluFrame (some x) s t)

/-- Both STM forms: the register's word, low byte first, at the address; no other byte, no register and no flag changes.
(41_data_movement.md R120, R125, R126; the wrap at 0xFFFF is D12, log 12.) -/
def Obligations.StoresWriteOneWord : Prop :=
  ∀ (s : State) (x y : RegIdx) (imm : Word),
    (∃ t, exec (.stm x imm) s = .next t ∧ HoldsWord t imm (s.reg x) ∧ StoreFrame (storedAt imm) s t ∧
      t.sp = s.sp ∧ t.pc = s.pc + 4) ∧
    (∃ t, exec (.stmRr x y) s = .next t ∧ HoldsWord t (s.reg y) (s.reg x) ∧ StoreFrame (storedAt (s.reg y)) s t ∧
      t.sp = s.sp ∧ t.pc = s.pc + 4)

/-! ## Control flow -/

/-- JMP HHLL, JMP RX and JME: `pc` takes the target, JME only if all 16 bits agree; nothing else changes.
(42_control_flow.md R130, R131, R133, R136.) -/
def Obligations.JumpsChangeOnlyPc : Prop :=
  ∀ (s : State) (x y : RegIdx) (target : Word),
    (∃ t, exec (.jmp target) s = .next t ∧ t.pc = target ∧ OnlyPc s t) ∧
    (∃ t, exec (.jmpR x) s = .next t ∧ t.pc = s.reg x ∧ OnlyPc s t) ∧
    (∃ t, exec (.jme x y target) s = .next t ∧ OnlyPc s t ∧
      (s.reg x = s.reg y → t.pc = target) ∧ (s.reg x ≠ s.reg y → t.pc = s.pc + 4))

/-- Jcc with a named condition: `pc` takes the target exactly if the condition holds, and nothing else changes; the
conditions are the flag formulas of R101. (42_control_flow.md R132, 40_conditions.md R101; the signed formulas are D4,
log 4.) -/
def Obligations.ConditionalJumpFollowsTheTable : Prop :=
  ∀ (s : State) (c : Cond) (target : Word), c ≠ .reserved →
    ∃ t, exec (.jcc c target) s = .next t ∧ OnlyPc s t ∧
      (let f := s.flags
       let holds : Prop := match c with
        | .z => f.z = true
        | .nz => f.z = false
        | .n => f.n = true
        | .nn => f.n = false
        | .p => f.n = false ∧ f.z = false
        | .o => f.o = true
        | .no => f.o = false
        | .a => f.c = true ∧ f.z = false
        | .ae => f.c = true ∨ f.z = true
        | .b => f.c = false
        | .be => f.c = false ∨ f.z = true
        | .g => f.o = f.n ∧ f.z = false
        | .ge => f.o = f.n
        | .l => f.o ≠ f.n
        | .le => f.o ≠ f.n ∨ f.z = true
        | .reserved => False
       (holds → t.pc = target) ∧ (¬ holds → t.pc = s.pc + 4))

/-- Code 0 with the zero flag clear never branches and code 1 always does. (40_conditions.md R104.) -/
def Obligations.ZeroClearSeparatesCodesZeroAndOne : Prop :=
  ∀ (s : State) (target : Word), s.flags.z = false →
    evalCond (condOf 0) s.flags = some false ∧ evalCond (condOf 1) s.flags = some true ∧
    exec (.jcc (condOf 0) target) s = .next { s with pc := s.pc + 4 } ∧
    exec (.jcc (condOf 1) target) s = .next { s with pc := target }

/-- Condition code 15 faults in Jcc and CALLcc for every state of the flags. (R294, R103; the spec's decision D3,
log 3.) -/
def Obligations.ReservedConditionFaults : Prop :=
  ∀ (s : State) (target : Word), condOf 15 = .reserved ∧
    exec (.jcc .reserved target) s = .fault (.reservedCondition s.pc) ∧
    exec (.callcc .reserved target) s = .fault (.reservedCondition s.pc)

/-- CALL HHLL, CALL RX and a taken CALLcc push the address after them, little-endian, at the old `sp`, add 2 to it and
go to the target; an untaken CALLcc only advances. No register, flag or other byte changes. (42_control_flow.md R134,
R137, R138.) -/
def Obligations.CallsPushTheReturnAddress : Prop :=
  ∀ (s : State) (x : RegIdx) (c : Cond) (target : Word),
    let Called (t : State) (goal : Word) : Prop :=
      HoldsWord t s.sp (s.pc + 4) ∧ StoreFrame (storedAt s.sp) s t ∧ t.sp = s.sp + 2 ∧ t.pc = goal
    (∃ t, exec (.call target) s = .next t ∧ Called t target) ∧
    (∃ t, exec (.callR x) s = .next t ∧ Called t (s.reg x)) ∧
    (evalCond c s.flags = some true → ∃ t, exec (.callcc c target) s = .next t ∧ Called t target) ∧
    (evalCond c s.flags = some false → ∃ t, exec (.callcc c target) s = .next t ∧ OnlyPc s t ∧ t.pc = s.pc + 4)

/-- RET takes the word at `sp - 2` as `pc` and lowers `sp` by 2; nothing else changes. (42_control_flow.md R135.) -/
def Obligations.ReturnPopsThePc : Prop :=
  ∀ s : State, ∃ t, exec .ret s = .next t ∧ t.pc = wordAt s (s.sp - 2) ∧ t.sp = s.sp - 2 ∧
    StoreFrame [] s t

/-- A call (CALL HHLL, CALL RX, or CALLcc whose condition holds) followed by RET at the target comes back to the address
after the call with `sp` restored, and leaves registers, flags and every byte outside the stack slot alone.
(42_control_flow.md R139, R134, R135, R137, R138.) -/
def Obligations.CallThenReturnComesBack : Prop :=
  ∀ (s t u : State) (i : Instr),
    (∃ target, i = .call target) ∨ (∃ x, i = .callR x) ∨
      (∃ c target, i = .callcc c target ∧ evalCond c s.flags = some true) →
    exec i s = .next t → exec .ret t = .next u →
    u.pc = s.pc + 4 ∧ u.sp = s.sp ∧ u.flags = s.flags ∧ RegsKeptBut [] s u ∧ MemKeptBut (storedAt s.sp) s u

/-! ## Stack instructions -/

/-- PUSH stores the register's word at `sp` and adds 2; POP lowers `sp` by 2 and loads the word there, with no flag
written. (46_stack.md R232, R233.) -/
def Obligations.PushStoresAndPopLoads : Prop :=
  ∀ (s : State) (x : RegIdx),
    (∃ t, exec (.push x) s = .next t ∧ HoldsWord t s.sp (s.reg x) ∧ StoreFrame (storedAt s.sp) s t ∧
      t.sp = s.sp + 2 ∧ t.pc = s.pc + 4) ∧
    (∃ t, exec (.pop x) s = .next t ∧ t.reg x = wordAt s (s.sp - 2) ∧ t.sp = s.sp - 2 ∧ t.pc = s.pc + 4 ∧
      t.flags = s.flags ∧ RegsKeptBut [x] s t ∧ MemKeptBut [] s t ∧ PortsQuiet s t)

/-- PUSHALL stores register i at `sp + 2*i` and adds 32 to `sp`; only those 32 bytes, `sp` and `pc` change.
(46_stack.md R234.) -/
def Obligations.PushallStoresSixteenWords : Prop :=
  ∀ s : State, ∃ t, exec .pushall s = .next t ∧
    (∀ i : RegIdx, HoldsWord t (s.sp + BitVec.ofNat 16 (2 * i.val)) (s.reg i)) ∧
    StoreFrame (savedBlock s.sp) s t ∧ t.sp = s.sp + 32 ∧ t.pc = s.pc + 4

/-- POPALL lowers `sp` by 32 and loads register i from `sp + 2*i`; no byte and no flag changes. (46_stack.md R235.) -/
def Obligations.PopallLoadsSixteenWords : Prop :=
  ∀ s : State, ∃ t, exec .popall s = .next t ∧
    (∀ i : RegIdx, t.reg i = wordAt s (s.sp - 32 + BitVec.ofNat 16 (2 * i.val))) ∧
    MemKeptBut [] s t ∧ t.sp = s.sp - 32 ∧ t.pc = s.pc + 4 ∧ t.flags = s.flags ∧ PortsQuiet s t

/-- PUSHALL then POPALL is an identity on all 16 registers and `sp`, provided nothing between them changes `sp` or the
32 bytes, whatever else it does; flags, `pc` and `sp` are not among what is saved. (46_stack.md R236.) -/
def Obligations.PushallThenPopallRestores : Prop :=
  ∀ s t m u : State, exec .pushall s = .next t →
    m.sp = t.sp → (∀ a ∈ savedBlock s.sp, m.read8 a = t.read8 a) →
    exec .popall m = .next u →
    (∀ i, u.reg i = s.reg i) ∧ u.sp = s.sp ∧ u.flags = m.flags ∧ u.pc = m.pc + 4

/-- PUSHF stores a word whose low byte holds C, O, N, Z at bits 7, 6, 1, 0 and whose other bits are 0, and adds 2 to
`sp`. (46_stack.md R238, 10_state.md R33; the high byte is the spec's decision D7, log 7, the layout its decision D8,
log 8.) -/
def Obligations.PushfStoresThePackedFlags : Prop :=
  ∀ s : State, ∃ t, exec .pushf s = .next t ∧
    (t.read8 s.sp).toNat =
      128 * s.flags.c.toNat + 64 * s.flags.o.toNat + 2 * s.flags.n.toNat + s.flags.z.toNat ∧
    (t.read8 (s.sp + 1)).toNat = 0 ∧
    StoreFrame (storedAt s.sp) s t ∧ t.sp = s.sp + 2 ∧ t.pc = s.pc + 4

/-- POPF takes the four flags from bits 7, 6, 1, 0 of the byte at `sp - 2`, whatever the slot's other bits are, and
lowers `sp` by 2. (46_stack.md R239; D7, log 7; D8, log 8.) -/
def Obligations.PopfTakesFourBits : Prop :=
  ∀ s : State, ∃ t, exec .popf s = .next t ∧
    t.flags.c = (s.read8 (s.sp - 2)).getLsbD 7 ∧ t.flags.o = (s.read8 (s.sp - 2)).getLsbD 6 ∧
    t.flags.n = (s.read8 (s.sp - 2)).getLsbD 1 ∧ t.flags.z = (s.read8 (s.sp - 2)).getLsbD 0 ∧
    t.sp = s.sp - 2 ∧ t.pc = s.pc + 4 ∧ RegsKeptBut [] s t ∧ MemKeptBut [] s t ∧ PortsQuiet s t

/-- PUSHF then POPF restores the four flags and `sp`, for all 16 flag states, whatever the flags are set to in between.
(46_stack.md R239, R238; D7, log 7; D8, log 8.) -/
def Obligations.PushfThenPopfRestores : Prop :=
  ∀ (s t u : State) (g : Flags), exec .pushf s = .next t → exec .popf (t.setFlags g) = .next u →
    u.flags = s.flags ∧ u.sp = s.sp

/-! ## Peripheral instructions -/

/-- NOP advances `pc` and does nothing else. (47_peripheral.md R255.) -/
def Obligations.NopOnlyAdvances : Prop :=
  ∀ s : State, ∃ t, exec .nop s = .next t ∧ OnlyPc s t ∧ t.pc = s.pc + 4

/-- CLS, BGC, SPR, FLIP, SND0 to SND3, SNP, SNG and both PAL forms, when none of their port calls fails, make their
calls in order and only advance `pc`. (47_peripheral.md R256, R258, R259, R263 to R272; healthy ports are the premise
D21 names, log 15; the record of calls is the model's field, log 16; their order is D22, log 20; that PAL RX reads the
palette at the address in the register is the spec's decision D15, log 17.) -/
def Obligations.SendersMakeTheirCallsAndAdvance : Prop :=
  ∀ (s : State) (i : Instr),
    (i = .cls ∨ (∃ n, i = .bgc n) ∨ (∃ w h, i = .spr w h) ∨ (∃ h v, i = .flip h v) ∨ i = .snd0 ∨ (∃ d, i = .snd1 d) ∨
      (∃ d, i = .snd2 d) ∨ (∃ d, i = .snd3 d) ∨ (∃ x d, i = .snp x d) ∨ (∃ ad w, i = .sng ad w) ∨ (∃ a, i = .pal a) ∨
      ∃ x, i = .palR x) →
    s.PortsHealthy (i.portCalls s).length →
    ∃ t, exec i s = .next t ∧ SentOnly (i.portCalls s) s t ∧ CoreKept s t ∧ t.pc = s.pc + 4

/-- VBLNK, when its port call does not fail, advances if the GPU answers true and holds `pc` at its own address if it
answers false. The answer is the oldest listed one, which is used up, or with none listed the next free value, and then
the next use draws afresh; the outcome of the call is used up, and no other input and nothing else of the core changes.
(47_peripheral.md R257; the answer is an oracle, D18, and its lists and free values are the model's, log 14; healthy
ports are D21, log 15; the record of calls is log 16.) -/
def Obligations.VblnkRetriesUntilVerticalBlank : Prop :=
  ∀ s : State, s.PortsHealthy 1 → ∃ t, exec .vblnk s = .next t ∧ CoreKept s t ∧
    t.portLog = s.portLog ++ [.gpuVblank] ∧
    (s.vblankAnswer = true → t.pc = s.pc + 4) ∧ (s.vblankAnswer = false → t.pc = s.pc) ∧
    (∀ b rest, s.inputs.vblank = b :: rest → s.vblankAnswer = b ∧
      t.inputs = { s.inputs with outcomes := s.inputs.outcomes.drop 1, vblank := rest }) ∧
    (s.inputs.vblank = [] → s.vblankAnswer = Config.freeVblank s.inputs.draws ∧
      t.inputs = { s.inputs with outcomes := s.inputs.outcomes.drop 1, draws := s.inputs.draws + 1 })

/-- Both DRW forms, when their port call does not fail, send the sprite's address (for the register form the word stored
at the address in RZ) and the raw coordinates, and put the overlap answer in `C`; no other flag, no register and no byte
changes. The answer is the oldest listed one, which is used up, or with none listed the next free value, and then the
next use draws afresh; the outcome of the call is used up, and no other input changes. (47_peripheral.md R260, R261; that
Z, O, N are kept is the spec's decision D6, log 6; who reads the pointer is D16, log 17; the answer is an oracle, and its
lists and free values are the model's, log 14; healthy ports are D21, log 15; the record of calls is log 16.) -/
def Obligations.DrawPutsTheOverlapInCarry : Prop :=
  ∀ (s : State) (x y z : RegIdx) (addr : Word) (i : Instr) (sprite : Word),
    (i = .drw x y addr ∧ sprite = addr) ∨ (i = .drwR z x y ∧ sprite = wordAt s (s.reg z)) →
    s.PortsHealthy 1 → ∃ t, exec i s = .next t ∧
      t.portLog = s.portLog ++ [.gpuDraw sprite (s.reg x) (s.reg y)] ∧
      t.flags = { s.flags with c := s.overlapAnswer } ∧
      (∀ b rest, s.inputs.overlap = b :: rest → s.overlapAnswer = b ∧
        t.inputs = { s.inputs with outcomes := s.inputs.outcomes.drop 1, overlap := rest }) ∧
      (s.inputs.overlap = [] → s.overlapAnswer = Config.freeOverlap s.inputs.draws ∧
        t.inputs = { s.inputs with outcomes := s.inputs.outcomes.drop 1, draws := s.inputs.draws + 1 }) ∧
      RegsKeptBut [] s t ∧ MemKeptBut [] s t ∧ t.sp = s.sp ∧ t.fault = s.fault ∧ t.cycles = s.cycles ∧ t.pc = s.pc + 4

/-- RND, when its port call does not fail, writes a value of the inclusive range [0, hhll]: a listed answer of that range
as it is, so every value of the range can be answered; nothing else of the core changes. The oldest listed answer is used
up, or with none listed the next free value is brought into the range, and then the next use draws afresh; the outcome of
the call is used up, and no other input changes. (47_peripheral.md R262, R253; the draw is an oracle, D17, its lists and
free values are the model's, log 14, and bringing a draw into the range is log 24; healthy ports are D21, log 15; the
record of calls is log 16.) -/
def Obligations.RandomStaysInItsRange : Prop :=
  ∀ (s : State) (x : RegIdx) (bound : Word), s.PortsHealthy 1 →
    ∃ t, exec (.rnd x bound) s = .next t ∧ (t.reg x).toNat ≤ bound.toNat ∧
      t.portLog = s.portLog ++ [.rngNextInRange bound] ∧
      (∀ v rest, s.inputs.random = v :: rest → (v.toNat ≤ bound.toNat → t.reg x = v) ∧
        t.inputs = { s.inputs with outcomes := s.inputs.outcomes.drop 1, random := rest }) ∧
      (s.inputs.random = [] → t.reg x = intoRange (Config.freeRandom s.inputs.draws) bound ∧
        t.inputs = { s.inputs with outcomes := s.inputs.outcomes.drop 1, draws := s.inputs.draws + 1 }) ∧
      RegsKeptBut [x] s t ∧ MemKeptBut [] s t ∧ t.sp = s.sp ∧ t.flags = s.flags ∧ t.fault = s.fault ∧
      t.cycles = s.cycles ∧ t.pc = s.pc + 4

/-- A failing port call ends the step with the peripheral's own error, passed through, and the calls before it stay made;
the core's registers, flags, `sp`, memory and `pc` are not written. (60_exceptions.md R293; the order of the calls of CLS,
SPR, FLIP and PAL is D22, log 20; which call fails is an input of the model, log 15, and the record of calls is its
field, log 16; the palette bytes that a failing PAL RX has sent are read at the address D15 decides, log 17.) -/
def Obligations.PeripheralErrorEndsTheStep : Prop :=
  ∀ (s : State) (i : Instr) (k : Nat) (e : PeripheralError),
    k < (i.portCalls s).length → s.PortFailsAt k e →
    exec i s = .fault (.peripheralFailure s.pc e ((i.portCalls s).take k)) ∧
    (s.fault = none → decodeFields s.fetch = .ok i →
      let t := s.requestStep
      RegsKeptBut [] s t ∧ MemKeptBut [] s t ∧ t.flags = s.flags ∧ t.sp = s.sp ∧ t.pc = s.pc ∧
      t.portLog = s.portLog ++ (i.portCalls s).take k)
end

