-- ==== Sys2Proof/Laws/Alu.lean ====
section
/-! SUPPORT. The ALU functions in exact integer arithmetic (43_arithmetic.md R150 to R154). -/
namespace Sys2Proof.Machine

variable (a b : Word) (f : Flags)

theorem msb_iff (r : Word) : r.msb = true ↔ 32768 ≤ r.toNat := by
  rw [BitVec.msb_eq_decide]; simp

theorem isZero_iff (r : Word) : (r == 0) = true ↔ r = 0 := by simp

@[simp] theorem setZN_c (r : Word) : (f.setZN r).c = f.c := rfl
@[simp] theorem setZN_o (r : Word) : (f.setZN r).o = f.o := rfl
@[simp] theorem setZN_z (r : Word) : (f.setZN r).z = (r == 0) := rfl
@[simp] theorem setZN_n (r : Word) : (f.setZN r).n = r.msb := rfl

theorem add16_value : (add16 a b f).1 = a + b := by
  apply BitVec.eq_of_toNat_eq
  simp [add16, BitVec.toNat_add]

theorem add16_carry : (add16 a b f).2.c = true ↔ 65536 ≤ a.toNat + b.toNat := by
  simp [add16]; omega

theorem add16_flags_from_value :
    (add16 a b f).2.z = ((add16 a b f).1 == 0) ∧ (add16 a b f).2.n = (add16 a b f).1.msb ∧
      (add16 a b f).2.o = (a.msb == b.msb && (add16 a b f).1.msb != a.msb) := ⟨rfl, rfl, rfl⟩

theorem sub16_value : (sub16 a b f).1 = a - b := by
  apply BitVec.eq_of_toNat_eq
  have ha := a.isLt
  have hb := b.isLt
  simp only [sub16, BitVec.toNat_ofInt, BitVec.toNat_sub]
  omega

theorem sub16_carry : (sub16 a b f).2.c = true ↔ b.toNat ≤ a.toNat := by
  simp [sub16]

theorem sub16_flags_from_value :
    (sub16 a b f).2.z = ((sub16 a b f).1 == 0) ∧ (sub16 a b f).2.n = (sub16 a b f).1.msb ∧
      (sub16 a b f).2.o = (a.msb != b.msb && (sub16 a b f).1.msb != a.msb) := ⟨rfl, rfl, rfl⟩

theorem mul16_value : (mul16 a b f).1 = a * b := by
  apply BitVec.eq_of_toNat_eq
  simp [mul16, BitVec.toNat_mul]

@[simp] theorem mul16_overflow : (mul16 a b f).2.o = f.o := rfl

/-- The upper half of the product fits 16 bits. -/
theorem mul_upper_lt : a.toNat * b.toNat / 65536 < 65536 := by
  have ha := a.isLt
  have hb := b.isLt
  have : a.toNat * b.toNat < 65536 * 65536 := Nat.mul_lt_mul'' ha hb
  omega

/-- The default reading of division: unsigned floor quotient and remainder (R153, R154). -/
theorem quotRem_toNat :
    (quotRem a b).1.toNat = a.toNat / b.toNat ∧ (quotRem a b).2.toNat = a.toNat % b.toNat := by
  have ha := a.isLt
  have hq : a.toNat / b.toNat ≤ a.toNat := Nat.div_le_self _ _
  have hm : a.toNat - a.toNat / b.toNat * b.toNat = a.toNat % b.toNat := by
    rw [Nat.mod_eq_sub_div_mul]
  have hlt : a.toNat % b.toNat ≤ a.toNat := Nat.mod_le _ _
  simp only [quotRem, params, BitVec.toNat_ofNat, hm]
  exact ⟨Nat.mod_eq_of_lt (by omega), Nat.mod_eq_of_lt (by omega)⟩

theorem div16_zero : div16 a 0 f = none := by simp [div16]

theorem mod16_zero : mod16 a 0 f = none := by simp [mod16]

theorem div16_nonzero (hb : b ≠ 0) :
    div16 a b f = some ((quotRem a b).1,
      { f with c := (quotRem a b).2 != 0, z := (quotRem a b).1 == 0, n := (quotRem a b).1.msb }) := by
  rw [div16, if_neg hb]

theorem mod16_nonzero (hb : b ≠ 0) :
    mod16 a b f = some ((quotRem a b).2,
      { f with c := (quotRem a b).2 != 0, z := (quotRem a b).2 == 0, n := (quotRem a b).2.msb }) := by
  rw [mod16, if_neg hb]

/-- Only code 15 has no value (R103). -/
theorem evalCond_eq_none {c : Cond} : evalCond c f = none ↔ c = .reserved := by
  cases c <;> simp [evalCond, params]

end Sys2Proof.Machine
end

