-- ==== Sys2Proof/Laws/Bits.lean ====
section
/-! SUPPORT. The halves of bytes and words: splitting and joining undo each other. -/
namespace Sys2Proof.Machine

theorem joinBytes_getLsbD (lo hi : Byte) (i : Nat) :
    (joinBytes lo hi).getLsbD i = if i < 8 then lo.getLsbD i else hi.getLsbD (i - 8) := by
  rw [joinBytes]
  exact (BitVec.getLsbD_append (x := hi) (y := lo) (i := i)).trans (by simp)

@[simp] theorem lowByte_joinBytes (lo hi : Byte) : lowByte (joinBytes lo hi) = lo := by
  ext i h
  simp [lowByte, joinBytes_getLsbD, h]

@[simp] theorem highByte_joinBytes (lo hi : Byte) : highByte (joinBytes lo hi) = hi := by
  ext i h
  simp [highByte, joinBytes_getLsbD, BitVec.getLsbD_eq_getElem h]

@[simp] theorem joinBytes_halves (w : Word) : joinBytes (lowByte w) (highByte w) = w := by
  apply BitVec.eq_of_getLsbD_eq
  intro i h
  rw [joinBytes_getLsbD]
  by_cases h8 : i < 8
  · simp [lowByte, h8]
  · have h8' : i - 8 < 8 := by omega
    have : 8 + (i - 8) = i := by omega
    simp [highByte, h8, h8', this]

@[simp] theorem lowNibble_joinNibbles (h l : Nibble) : lowNibble (joinNibbles h l) = l := by
  revert h l; decide

@[simp] theorem highNibble_joinNibbles (h l : Nibble) : highNibble (joinNibbles h l) = h := by
  revert h l; decide

@[simp] theorem toReg_ofReg (r : RegIdx) : toReg (ofReg r) = r := rfl

@[simp] theorem ofReg_toReg (n : Nibble) : ofReg (toReg n) = n := rfl

@[simp] theorem condOf_condCode (c : Cond) : condOf (condCode c) = c := by cases c <;> rfl

@[simp] theorem condCode_condOf (n : Nibble) : condCode (condOf n) = n := by revert n; decide

/-- The value of a little-endian pair. -/
theorem joinBytes_toNat (lo hi : Byte) : (joinBytes lo hi).toNat = lo.toNat + 256 * hi.toNat := by
  have h : joinBytes lo hi = hi ++ lo := rfl
  have hl := lo.isLt
  rw [h, BitVec.toNat_append, Nat.shiftLeft_eq, Nat.mul_comm, ← Nat.two_pow_add_eq_or_of_lt (by omega)]
  omega

theorem lowByte_toNat (v : Word) : (lowByte v).toNat = v.toNat % 256 := by
  have h := joinBytes_toNat (lowByte v) (highByte v)
  rw [joinBytes_halves] at h
  have hl := (lowByte v).isLt
  omega

theorem highByte_toNat (v : Word) : (highByte v).toNat = v.toNat / 256 := by
  have h := joinBytes_toNat (lowByte v) (highByte v)
  rw [joinBytes_halves] at h
  have hl := (lowByte v).isLt
  omega

end Sys2Proof.Machine
end

