-- ==== Sys2Proof/Machine/Assembly.lean ====
section
/-! DEFINITION. How instructions are written (30_encoding.md R82 to R86, D24, D26): mnemonics and operands. No instruction
and no step depends on it. -/
namespace Sys2Proof.Machine

/-- An operand as R82 writes it. -/
inductive AsmOperand
  /-- `R0` to `R15` -/
  | reg (i : RegIdx)
  /-- the `SP` of `LDI SP,HHLL` -/
  | stackPointer
  /-- a 16-bit immediate, in hexadecimal -/
  | word (v : Word)
  /-- a byte of `SNG AD,SR,VT`, in hexadecimal -/
  | byte (v : Byte)
  /-- `N`, `H` or `V`, in decimal -/
  | count (n : Nat)
  deriving DecidableEq, Repr

/-- A mnemonic and its operands, in the order of R82: destination first, and the sprite source first for DRW. -/
structure Assembly where
  mnemonic : String
  operands : List AsmOperand
  deriving DecidableEq, Repr

/-- The names of the conditions (R84, R101): code 15 has none. -/
def condName : Cond → Option String
  | .z => some "Z"
  | .nz => some "NZ"
  | .n => some "N"
  | .nn => some "NN"
  | .p => some "P"
  | .o => some "O"
  | .no => some "NO"
  | .a => some "A"
  | .ae => some "AE"
  | .b => some "B"
  | .be => some "BE"
  | .g => some "G"
  | .ge => some "GE"
  | .l => some "L"
  | .le => some "LE"
  | .reserved => none

/-- The labels of R83, which spec/opcode_table.json uses as its mnemonics: labels of the spec, no assembler text. -/
def formLabel : Form → String
  | .nop => "NOP"
  | .cls => "CLS"
  | .vblnk => "VBLNK"
  | .bgc => "BGC"
  | .spr => "SPR"
  | .drw => "DRW"
  | .drwR => "DRW_R"
  | .rnd => "RND"
  | .flip => "FLIP"
  | .snd0 => "SND0"
  | .snd1 => "SND1"
  | .snd2 => "SND2"
  | .snd3 => "SND3"
  | .snp => "SNP"
  | .sng => "SNG"
  | .jmp => "JMP"
  | .jcc => "Jcc"
  | .jme => "JME"
  | .call => "CALL"
  | .ret => "RET"
  | .jmpR => "JMP_R"
  | .callcc => "CALLcc"
  | .callR => "CALL_R"
  | .ldi => "LDI"
  | .ldiSp => "LDI_SP"
  | .ldm => "LDM"
  | .ldmRr => "LDM_RR"
  | .stm => "STM"
  | .stmRr => "STM_RR"
  | .addi => "ADDI"
  | .add => "ADD"
  | .add3 => "ADD3"
  | .subi => "SUBI"
  | .sub => "SUB"
  | .sub3 => "SUB3"
  | .cmpi => "CMPI"
  | .cmp => "CMP"
  | .andi => "ANDI"
  | .and => "AND"
  | .and3 => "AND3"
  | .tsti => "TSTI"
  | .tst => "TST"
  | .ori => "ORI"
  | .or => "OR"
  | .or3 => "OR3"
  | .xori => "XORI"
  | .xor => "XOR"
  | .xor3 => "XOR3"
  | .muli => "MULI"
  | .mul => "MUL"
  | .mul3 => "MUL3"
  | .divi => "DIVI"
  | .div => "DIV"
  | .div3 => "DIV3"
  | .modi => "MODI"
  | .mod => "MOD"
  | .mod3 => "MOD3"
  | .shl => "SHL"
  | .shr => "SHR"
  | .push => "PUSH"
  | .pop => "POP"
  | .pushall => "PUSHALL"
  | .popall => "POPALL"
  | .pushf => "PUSHF"
  | .popf => "POPF"
  | .pal => "PAL"
  | .palR => "PAL_R"
  | .noti => "NOTI"
  | .notR => "NOT_R"
  | .notRr => "NOT_RR"
  | .negi => "NEGI"
  | .negR => "NEG_R"
  | .negRr => "NEG_RR"

/-- How an instruction is written (R78, R82, R83, R84, R86): `none` for the condition that has no name. `SPR` shows its
two bytes as one `HHLL`, and `SNG` shows `hhll` as `SR` = `ll` and `VT` = `hh` (D26, log 22). -/
def assembly : Instr → Option Assembly
  | .nop => some ⟨"NOP", []⟩
  | .cls => some ⟨"CLS", []⟩
  | .vblnk => some ⟨"VBLNK", []⟩
  | .bgc n => some ⟨"BGC", [.count n.toNat]⟩
  | .spr width height => some ⟨"SPR", [.word (joinBytes width height)]⟩
  | .drw x y imm => some ⟨"DRW", [.word imm, .reg x, .reg y]⟩
  | .drwR z x y => some ⟨"DRW", [.reg z, .reg x, .reg y]⟩
  | .rnd x imm => some ⟨"RND", [.reg x, .word imm]⟩
  | .flip h v => some ⟨"FLIP", [.count h.toNat, .count v.toNat]⟩
  | .snd0 => some ⟨"SND0", []⟩
  | .snd1 imm => some ⟨"SND1", [.word imm]⟩
  | .snd2 imm => some ⟨"SND2", [.word imm]⟩
  | .snd3 imm => some ⟨"SND3", [.word imm]⟩
  | .snp x imm => some ⟨"SNP", [.reg x, .word imm]⟩
  | .sng ad srvt => some ⟨"SNG", [.byte ad, .byte (lowByte srvt), .byte (highByte srvt)]⟩
  | .jmp imm => some ⟨"JMP", [.word imm]⟩
  | .jcc c target => (condName c).map fun n => ⟨"J" ++ n, [.word target]⟩
  | .jme x y imm => some ⟨"JME", [.reg x, .reg y, .word imm]⟩
  | .call imm => some ⟨"CALL", [.word imm]⟩
  | .ret => some ⟨"RET", []⟩
  | .jmpR x => some ⟨"JMP", [.reg x]⟩
  | .callcc c target => (condName c).map fun n => ⟨"CALL" ++ n, [.word target]⟩
  | .callR x => some ⟨"CALL", [.reg x]⟩
  | .ldi x imm => some ⟨"LDI", [.reg x, .word imm]⟩
  | .ldiSp imm => some ⟨"LDI", [.stackPointer, .word imm]⟩
  | .ldm x imm => some ⟨"LDM", [.reg x, .word imm]⟩
  | .ldmRr x y => some ⟨"LDM", [.reg x, .reg y]⟩
  | .stm x imm => some ⟨"STM", [.reg x, .word imm]⟩
  | .stmRr x y => some ⟨"STM", [.reg x, .reg y]⟩
  | .addi x imm => some ⟨"ADDI", [.reg x, .word imm]⟩
  | .add x y => some ⟨"ADD", [.reg x, .reg y]⟩
  | .add3 z x y => some ⟨"ADD", [.reg z, .reg x, .reg y]⟩
  | .subi x imm => some ⟨"SUBI", [.reg x, .word imm]⟩
  | .sub x y => some ⟨"SUB", [.reg x, .reg y]⟩
  | .sub3 z x y => some ⟨"SUB", [.reg z, .reg x, .reg y]⟩
  | .cmpi x imm => some ⟨"CMPI", [.reg x, .word imm]⟩
  | .cmp x y => some ⟨"CMP", [.reg x, .reg y]⟩
  | .andi x imm => some ⟨"ANDI", [.reg x, .word imm]⟩
  | .and x y => some ⟨"AND", [.reg x, .reg y]⟩
  | .and3 z x y => some ⟨"AND", [.reg z, .reg x, .reg y]⟩
  | .tsti x imm => some ⟨"TSTI", [.reg x, .word imm]⟩
  | .tst x y => some ⟨"TST", [.reg x, .reg y]⟩
  | .ori x imm => some ⟨"ORI", [.reg x, .word imm]⟩
  | .or x y => some ⟨"OR", [.reg x, .reg y]⟩
  | .or3 z x y => some ⟨"OR", [.reg z, .reg x, .reg y]⟩
  | .xori x imm => some ⟨"XORI", [.reg x, .word imm]⟩
  | .xor x y => some ⟨"XOR", [.reg x, .reg y]⟩
  | .xor3 z x y => some ⟨"XOR", [.reg z, .reg x, .reg y]⟩
  | .muli x imm => some ⟨"MULI", [.reg x, .word imm]⟩
  | .mul x y => some ⟨"MUL", [.reg x, .reg y]⟩
  | .mul3 z x y => some ⟨"MUL", [.reg z, .reg x, .reg y]⟩
  | .divi x imm => some ⟨"DIVI", [.reg x, .word imm]⟩
  | .div x y => some ⟨"DIV", [.reg x, .reg y]⟩
  | .div3 z x y => some ⟨"DIV", [.reg z, .reg x, .reg y]⟩
  | .modi x imm => some ⟨"MODI", [.reg x, .word imm]⟩
  | .mod x y => some ⟨"MOD", [.reg x, .reg y]⟩
  | .mod3 z x y => some ⟨"MOD", [.reg z, .reg x, .reg y]⟩
  | .shl x n => some ⟨"SHL", [.reg x, .count n.toNat]⟩
  | .shr x n => some ⟨"SHR", [.reg x, .count n.toNat]⟩
  | .push x => some ⟨"PUSH", [.reg x]⟩
  | .pop x => some ⟨"POP", [.reg x]⟩
  | .pushall => some ⟨"PUSHALL", []⟩
  | .popall => some ⟨"POPALL", []⟩
  | .pushf => some ⟨"PUSHF", []⟩
  | .popf => some ⟨"POPF", []⟩
  | .pal imm => some ⟨"PAL", [.word imm]⟩
  | .palR x => some ⟨"PAL", [.reg x]⟩
  | .noti x imm => some ⟨"NOTI", [.reg x, .word imm]⟩
  | .notR x => some ⟨"NOT", [.reg x]⟩
  | .notRr x y => some ⟨"NOT", [.reg x, .reg y]⟩
  | .negi x imm => some ⟨"NEGI", [.reg x, .word imm]⟩
  | .negR x => some ⟨"NEG", [.reg x]⟩
  | .negRr x y => some ⟨"NEG", [.reg x, .reg y]⟩

/-- The hexadecimal digit of a nibble. -/
def hexDigit (n : Nibble) : String :=
  match n.toNat with
  | 0 => "0" | 1 => "1" | 2 => "2" | 3 => "3" | 4 => "4" | 5 => "5" | 6 => "6" | 7 => "7"
  | 8 => "8" | 9 => "9" | 10 => "A" | 11 => "B" | 12 => "C" | 13 => "D" | 14 => "E" | _ => "F"

/-- Two hexadecimal digits. -/
def hexByte (b : Byte) : String := hexDigit (highNibble b) ++ hexDigit (lowNibble b)

/-- The text of an operand (R82). -/
def AsmOperand.text : AsmOperand → String
  | .reg i => "R" ++ toString i.val
  | .stackPointer => "SP"
  | .word v => "0x" ++ hexByte (highByte v) ++ hexByte (lowByte v)
  | .byte v => "0x" ++ hexByte v
  | .count n => toString n

/-- `MNEMONIC operand,operand,...` (R82). -/
def Assembly.text (a : Assembly) : String :=
  match a.operands with
  | [] => a.mnemonic
  | os => a.mnemonic ++ " " ++ String.intercalate "," (os.map AsmOperand.text)

end Sys2Proof.Machine
end

