-- ==== Sys2Proof/Laws/Encoding.lean ====
section
/-! SUPPORT. Opcode bytes and fields: each form has its own byte, and each field of an assembled instruction reads as
what was put there. -/
namespace Sys2Proof

open Sys2Proof.Machine

/-- Each form's byte selects that form: the map of R78 is injective. -/
@[simp] theorem formOf_opcode (f : Form) : formOf (params.opcodeMap f) = some f := by
  cases f <;> decide

/-- A byte selects a form only if it is that form's byte. -/
theorem opcode_of_formOf {op : Byte} {f : Form} (h : formOf op = some f) : params.opcodeMap f = op := by
  have := List.find?_some h
  simpa using this

theorem mem_all_forms (f : Form) : f ∈ Form.all := by cases f <;> decide

section
variable (f : Form) (yx ll hh : Byte)
@[simp] theorem asm_op : (asm f yx ll hh).op = params.opcodeMap f := rfl
@[simp] theorem asm_yx : (asm f yx ll hh).yx = yx := rfl
@[simp] theorem asm_ll : (asm f yx ll hh).ll = ll := rfl
@[simp] theorem asm_hh : (asm f yx ll hh).hh = hh := rfl
end

/-- The opcode byte of an encoding is its form's. -/
theorem fields_op (i : Instr) : i.fields.op = params.opcodeMap i.form := by cases i <;> rfl

@[simp] theorem form_build (f : Form) (w : Fields) : (f.build w).form = f := by cases f <;> rfl

@[simp] theorem flipByte_h (h v : Bool) : (flipByte h v)[1] = h := by cases h <;> cases v <;> rfl

@[simp] theorem flipByte_v (h v : Bool) : (flipByte h v)[0] = v := by cases h <;> cases v <;> rfl

@[simp] theorem pairXY_x (x y : RegIdx) : toReg (lowNibble (pairXY x y)) = x := by simp [pairXY]

@[simp] theorem pairXY_y (x y : RegIdx) : toReg (highNibble (pairXY x y)) = y := by simp [pairXY]

/-- The well-formed instructions are exactly those with a spelling (R84). -/
theorem assembly_isSome (i : Instr) : (assembly i).isSome = i.wellFormed := by
  cases i with
  | jcc c _ => cases c <;> rfl
  | callcc c _ => cases c <;> rfl
  | _ => rfl

end Sys2Proof
end

