-- ==== Sys2Proof/Laws/State.lean ====
section
/-! SUPPORT. One lemma per field and update of the state, all true by rfl, so that no proof unfolds a record update. -/
namespace Sys2Proof.Machine

variable (s : State)

@[simp] theorem State.regs_setReg (i : RegIdx) (v : Word) : (s.setReg i v).regs = s.regs.set i.val v := rfl
@[simp] theorem State.pc_setReg (i : RegIdx) (v : Word) : (s.setReg i v).pc = s.pc := rfl
@[simp] theorem State.sp_setReg (i : RegIdx) (v : Word) : (s.setReg i v).sp = s.sp := rfl
@[simp] theorem State.flags_setReg (i : RegIdx) (v : Word) : (s.setReg i v).flags = s.flags := rfl
@[simp] theorem State.cycles_setReg (i : RegIdx) (v : Word) : (s.setReg i v).cycles = s.cycles := rfl
@[simp] theorem State.fault_setReg (i : RegIdx) (v : Word) : (s.setReg i v).fault = s.fault := rfl
@[simp] theorem State.mem_setReg (i : RegIdx) (v : Word) : (s.setReg i v).mem = s.mem := rfl
@[simp] theorem State.inputs_setReg (i : RegIdx) (v : Word) : (s.setReg i v).inputs = s.inputs := rfl
@[simp] theorem State.portLog_setReg (i : RegIdx) (v : Word) : (s.setReg i v).portLog = s.portLog := rfl
@[simp] theorem State.read8_setReg (j : Word) (i : RegIdx) (v : Word) : (s.setReg i v).read8 j = s.read8 j := rfl
@[simp] theorem State.read16_setReg (j : Word) (i : RegIdx) (v : Word) : (s.setReg i v).read16 j = s.read16 j := rfl

@[simp] theorem State.regs_setSp (v : Word) : (s.setSp v).regs = s.regs := rfl
@[simp] theorem State.pc_setSp (v : Word) : (s.setSp v).pc = s.pc := rfl
@[simp] theorem State.sp_setSp (v : Word) : (s.setSp v).sp = v := rfl
@[simp] theorem State.flags_setSp (v : Word) : (s.setSp v).flags = s.flags := rfl
@[simp] theorem State.cycles_setSp (v : Word) : (s.setSp v).cycles = s.cycles := rfl
@[simp] theorem State.fault_setSp (v : Word) : (s.setSp v).fault = s.fault := rfl
@[simp] theorem State.mem_setSp (v : Word) : (s.setSp v).mem = s.mem := rfl
@[simp] theorem State.inputs_setSp (v : Word) : (s.setSp v).inputs = s.inputs := rfl
@[simp] theorem State.portLog_setSp (v : Word) : (s.setSp v).portLog = s.portLog := rfl
@[simp] theorem State.reg_setSp (j : RegIdx) (v : Word) : (s.setSp v).reg j = s.reg j := rfl
@[simp] theorem State.read8_setSp (j : Word) (v : Word) : (s.setSp v).read8 j = s.read8 j := rfl
@[simp] theorem State.read16_setSp (j : Word) (v : Word) : (s.setSp v).read16 j = s.read16 j := rfl

@[simp] theorem State.regs_setFlags (f : Flags) : (s.setFlags f).regs = s.regs := rfl
@[simp] theorem State.pc_setFlags (f : Flags) : (s.setFlags f).pc = s.pc := rfl
@[simp] theorem State.sp_setFlags (f : Flags) : (s.setFlags f).sp = s.sp := rfl
@[simp] theorem State.flags_setFlags (f : Flags) : (s.setFlags f).flags = f := rfl
@[simp] theorem State.cycles_setFlags (f : Flags) : (s.setFlags f).cycles = s.cycles := rfl
@[simp] theorem State.fault_setFlags (f : Flags) : (s.setFlags f).fault = s.fault := rfl
@[simp] theorem State.mem_setFlags (f : Flags) : (s.setFlags f).mem = s.mem := rfl
@[simp] theorem State.inputs_setFlags (f : Flags) : (s.setFlags f).inputs = s.inputs := rfl
@[simp] theorem State.portLog_setFlags (f : Flags) : (s.setFlags f).portLog = s.portLog := rfl
@[simp] theorem State.reg_setFlags (j : RegIdx) (f : Flags) : (s.setFlags f).reg j = s.reg j := rfl
@[simp] theorem State.read8_setFlags (j : Word) (f : Flags) : (s.setFlags f).read8 j = s.read8 j := rfl
@[simp] theorem State.read16_setFlags (j : Word) (f : Flags) : (s.setFlags f).read16 j = s.read16 j := rfl

@[simp] theorem State.regs_setCarry (b : Bool) : (s.setCarry b).regs = s.regs := rfl
@[simp] theorem State.pc_setCarry (b : Bool) : (s.setCarry b).pc = s.pc := rfl
@[simp] theorem State.sp_setCarry (b : Bool) : (s.setCarry b).sp = s.sp := rfl
@[simp] theorem State.flags_setCarry (b : Bool) : (s.setCarry b).flags = { s.flags with c := b } := rfl
@[simp] theorem State.cycles_setCarry (b : Bool) : (s.setCarry b).cycles = s.cycles := rfl
@[simp] theorem State.fault_setCarry (b : Bool) : (s.setCarry b).fault = s.fault := rfl
@[simp] theorem State.mem_setCarry (b : Bool) : (s.setCarry b).mem = s.mem := rfl
@[simp] theorem State.inputs_setCarry (b : Bool) : (s.setCarry b).inputs = s.inputs := rfl
@[simp] theorem State.portLog_setCarry (b : Bool) : (s.setCarry b).portLog = s.portLog := rfl
@[simp] theorem State.reg_setCarry (j : RegIdx) (b : Bool) : (s.setCarry b).reg j = s.reg j := rfl
@[simp] theorem State.read8_setCarry (j : Word) (b : Bool) : (s.setCarry b).read8 j = s.read8 j := rfl
@[simp] theorem State.read16_setCarry (j : Word) (b : Bool) : (s.setCarry b).read16 j = s.read16 j := rfl

@[simp] theorem State.regs_advance : (s.advance).regs = s.regs := rfl
@[simp] theorem State.pc_advance : (s.advance).pc = s.pc + 4 := rfl
@[simp] theorem State.sp_advance : (s.advance).sp = s.sp := rfl
@[simp] theorem State.flags_advance : (s.advance).flags = s.flags := rfl
@[simp] theorem State.cycles_advance : (s.advance).cycles = s.cycles := rfl
@[simp] theorem State.fault_advance : (s.advance).fault = s.fault := rfl
@[simp] theorem State.mem_advance : (s.advance).mem = s.mem := rfl
@[simp] theorem State.inputs_advance : (s.advance).inputs = s.inputs := rfl
@[simp] theorem State.portLog_advance : (s.advance).portLog = s.portLog := rfl
@[simp] theorem State.reg_advance (j : RegIdx) : (s.advance).reg j = s.reg j := rfl
@[simp] theorem State.read8_advance (j : Word) : (s.advance).read8 j = s.read8 j := rfl
@[simp] theorem State.read16_advance (j : Word) : (s.advance).read16 j = s.read16 j := rfl

@[simp] theorem State.regs_jump (t : Word) : (s.jump t).regs = s.regs := rfl
@[simp] theorem State.pc_jump (t : Word) : (s.jump t).pc = t := rfl
@[simp] theorem State.sp_jump (t : Word) : (s.jump t).sp = s.sp := rfl
@[simp] theorem State.flags_jump (t : Word) : (s.jump t).flags = s.flags := rfl
@[simp] theorem State.cycles_jump (t : Word) : (s.jump t).cycles = s.cycles := rfl
@[simp] theorem State.fault_jump (t : Word) : (s.jump t).fault = s.fault := rfl
@[simp] theorem State.mem_jump (t : Word) : (s.jump t).mem = s.mem := rfl
@[simp] theorem State.inputs_jump (t : Word) : (s.jump t).inputs = s.inputs := rfl
@[simp] theorem State.portLog_jump (t : Word) : (s.jump t).portLog = s.portLog := rfl
@[simp] theorem State.reg_jump (j : RegIdx) (t : Word) : (s.jump t).reg j = s.reg j := rfl
@[simp] theorem State.read8_jump (j : Word) (t : Word) : (s.jump t).read8 j = s.read8 j := rfl
@[simp] theorem State.read16_jump (j : Word) (t : Word) : (s.jump t).read16 j = s.read16 j := rfl

@[simp] theorem State.regs_countCycle : (s.countCycle).regs = s.regs := rfl
@[simp] theorem State.pc_countCycle : (s.countCycle).pc = s.pc := rfl
@[simp] theorem State.sp_countCycle : (s.countCycle).sp = s.sp := rfl
@[simp] theorem State.flags_countCycle : (s.countCycle).flags = s.flags := rfl
@[simp] theorem State.fault_countCycle : (s.countCycle).fault = s.fault := rfl
@[simp] theorem State.mem_countCycle : (s.countCycle).mem = s.mem := rfl
@[simp] theorem State.inputs_countCycle : (s.countCycle).inputs = s.inputs := rfl
@[simp] theorem State.portLog_countCycle : (s.countCycle).portLog = s.portLog := rfl
@[simp] theorem State.reg_countCycle (j : RegIdx) : (s.countCycle).reg j = s.reg j := rfl
@[simp] theorem State.read8_countCycle (j : Word) : (s.countCycle).read8 j = s.read8 j := rfl
@[simp] theorem State.read16_countCycle (j : Word) : (s.countCycle).read16 j = s.read16 j := rfl

@[simp] theorem State.regs_write8 (a : Word) (v : Byte) : (s.write8 a v).regs = s.regs := rfl
@[simp] theorem State.pc_write8 (a : Word) (v : Byte) : (s.write8 a v).pc = s.pc := rfl
@[simp] theorem State.sp_write8 (a : Word) (v : Byte) : (s.write8 a v).sp = s.sp := rfl
@[simp] theorem State.flags_write8 (a : Word) (v : Byte) : (s.write8 a v).flags = s.flags := rfl
@[simp] theorem State.cycles_write8 (a : Word) (v : Byte) : (s.write8 a v).cycles = s.cycles := rfl
@[simp] theorem State.fault_write8 (a : Word) (v : Byte) : (s.write8 a v).fault = s.fault := rfl
@[simp] theorem State.mem_write8 (a : Word) (v : Byte) : (s.write8 a v).mem = s.mem.write8 a v := rfl
@[simp] theorem State.inputs_write8 (a : Word) (v : Byte) : (s.write8 a v).inputs = s.inputs := rfl
@[simp] theorem State.portLog_write8 (a : Word) (v : Byte) : (s.write8 a v).portLog = s.portLog := rfl
@[simp] theorem State.reg_write8 (j : RegIdx) (a : Word) (v : Byte) : (s.write8 a v).reg j = s.reg j := rfl

@[simp] theorem State.regs_write16 (a v : Word) : (s.write16 a v).regs = s.regs := rfl
@[simp] theorem State.pc_write16 (a v : Word) : (s.write16 a v).pc = s.pc := rfl
@[simp] theorem State.sp_write16 (a v : Word) : (s.write16 a v).sp = s.sp := rfl
@[simp] theorem State.flags_write16 (a v : Word) : (s.write16 a v).flags = s.flags := rfl
@[simp] theorem State.cycles_write16 (a v : Word) : (s.write16 a v).cycles = s.cycles := rfl
@[simp] theorem State.fault_write16 (a v : Word) : (s.write16 a v).fault = s.fault := rfl
@[simp] theorem State.mem_write16 (a v : Word) : (s.write16 a v).mem = s.mem.write16 a v := rfl
@[simp] theorem State.inputs_write16 (a v : Word) : (s.write16 a v).inputs = s.inputs := rfl
@[simp] theorem State.portLog_write16 (a v : Word) : (s.write16 a v).portLog = s.portLog := rfl
@[simp] theorem State.reg_write16 (j : RegIdx) (a v : Word) : (s.write16 a v).reg j = s.reg j := rfl

@[simp] theorem State.regs_push16 (v : Word) : (s.push16 v).regs = s.regs := rfl
@[simp] theorem State.pc_push16 (v : Word) : (s.push16 v).pc = s.pc := rfl
@[simp] theorem State.sp_push16 (v : Word) : (s.push16 v).sp = s.sp + 2 := rfl
@[simp] theorem State.flags_push16 (v : Word) : (s.push16 v).flags = s.flags := rfl
@[simp] theorem State.cycles_push16 (v : Word) : (s.push16 v).cycles = s.cycles := rfl
@[simp] theorem State.fault_push16 (v : Word) : (s.push16 v).fault = s.fault := rfl
@[simp] theorem State.mem_push16 (v : Word) : (s.push16 v).mem = s.mem.write16 s.sp v := rfl
@[simp] theorem State.inputs_push16 (v : Word) : (s.push16 v).inputs = s.inputs := rfl
@[simp] theorem State.portLog_push16 (v : Word) : (s.push16 v).portLog = s.portLog := rfl
@[simp] theorem State.reg_push16 (j : RegIdx) (v : Word) : (s.push16 v).reg j = s.reg j := rfl

@[simp] theorem State.regs_dropSlot : (s.dropSlot).regs = s.regs := rfl
@[simp] theorem State.pc_dropSlot : (s.dropSlot).pc = s.pc := rfl
@[simp] theorem State.sp_dropSlot : (s.dropSlot).sp = s.sp - 2 := rfl
@[simp] theorem State.flags_dropSlot : (s.dropSlot).flags = s.flags := rfl
@[simp] theorem State.cycles_dropSlot : (s.dropSlot).cycles = s.cycles := rfl
@[simp] theorem State.fault_dropSlot : (s.dropSlot).fault = s.fault := rfl
@[simp] theorem State.mem_dropSlot : (s.dropSlot).mem = s.mem := rfl
@[simp] theorem State.inputs_dropSlot : (s.dropSlot).inputs = s.inputs := rfl
@[simp] theorem State.portLog_dropSlot : (s.dropSlot).portLog = s.portLog := rfl
@[simp] theorem State.reg_dropSlot (j : RegIdx) : (s.dropSlot).reg j = s.reg j := rfl
@[simp] theorem State.read8_dropSlot (j : Word) : (s.dropSlot).read8 j = s.read8 j := rfl
@[simp] theorem State.read16_dropSlot (j : Word) : (s.dropSlot).read16 j = s.read16 j := rfl

@[simp] theorem State.regs_recordCall (c : PortCall) : (s.recordCall c).regs = s.regs := rfl
@[simp] theorem State.pc_recordCall (c : PortCall) : (s.recordCall c).pc = s.pc := rfl
@[simp] theorem State.sp_recordCall (c : PortCall) : (s.recordCall c).sp = s.sp := rfl
@[simp] theorem State.flags_recordCall (c : PortCall) : (s.recordCall c).flags = s.flags := rfl
@[simp] theorem State.cycles_recordCall (c : PortCall) : (s.recordCall c).cycles = s.cycles := rfl
@[simp] theorem State.fault_recordCall (c : PortCall) : (s.recordCall c).fault = s.fault := rfl
@[simp] theorem State.mem_recordCall (c : PortCall) : (s.recordCall c).mem = s.mem := rfl
@[simp] theorem State.inputs_recordCall (c : PortCall) : (s.recordCall c).inputs = { s.inputs with outcomes := s.inputs.outcomes.tail } := rfl
@[simp] theorem State.portLog_recordCall (c : PortCall) : (s.recordCall c).portLog = s.portLog ++ [c] := rfl
@[simp] theorem State.reg_recordCall (j : RegIdx) (c : PortCall) : (s.recordCall c).reg j = s.reg j := rfl
@[simp] theorem State.read8_recordCall (j : Word) (c : PortCall) : (s.recordCall c).read8 j = s.read8 j := rfl
@[simp] theorem State.read16_recordCall (j : Word) (c : PortCall) : (s.recordCall c).read16 j = s.read16 j := rfl

@[simp] theorem State.regs_latch (f : Fault) : (s.latch f).regs = s.regs := rfl
@[simp] theorem State.pc_latch (f : Fault) : (s.latch f).pc = s.pc := rfl
@[simp] theorem State.sp_latch (f : Fault) : (s.latch f).sp = s.sp := rfl
@[simp] theorem State.flags_latch (f : Fault) : (s.latch f).flags = s.flags := rfl
@[simp] theorem State.cycles_latch (f : Fault) : (s.latch f).cycles = Config.freeCycles s.inputs.draws := rfl
@[simp] theorem State.fault_latch (f : Fault) : (s.latch f).fault = some f := rfl
@[simp] theorem State.mem_latch (f : Fault) : (s.latch f).mem = s.mem := rfl
@[simp] theorem State.inputs_latch (f : Fault) : (s.latch f).inputs = s.inputs := rfl
@[simp] theorem State.portLog_latch (f : Fault) : (s.latch f).portLog = s.portLog ++ f.reachedCalls := rfl
@[simp] theorem State.reg_latch (j : RegIdx) (f : Fault) : (s.latch f).reg j = s.reg j := rfl
@[simp] theorem State.read8_latch (j : Word) (f : Fault) : (s.latch f).read8 j = s.read8 j := rfl
@[simp] theorem State.read16_latch (j : Word) (f : Fault) : (s.latch f).read16 j = s.read16 j := rfl

@[simp] theorem State.regs_callTo (t : Word) : (s.callTo t).regs = s.regs := rfl
@[simp] theorem State.pc_callTo (t : Word) : (s.callTo t).pc = t := rfl
@[simp] theorem State.sp_callTo (t : Word) : (s.callTo t).sp = s.sp + 2 := rfl
@[simp] theorem State.flags_callTo (t : Word) : (s.callTo t).flags = s.flags := rfl
@[simp] theorem State.cycles_callTo (t : Word) : (s.callTo t).cycles = s.cycles := rfl
@[simp] theorem State.fault_callTo (t : Word) : (s.callTo t).fault = s.fault := rfl
@[simp] theorem State.mem_callTo (t : Word) : (s.callTo t).mem = s.mem.write16 s.sp (s.pc + 4) := rfl
@[simp] theorem State.inputs_callTo (t : Word) : (s.callTo t).inputs = s.inputs := rfl
@[simp] theorem State.portLog_callTo (t : Word) : (s.callTo t).portLog = s.portLog := rfl
@[simp] theorem State.reg_callTo (j : RegIdx) (t : Word) : (s.callTo t).reg j = s.reg j := rfl

@[simp] theorem State.regs_aluWrite (d : RegIdx) (r : Word × Flags) : (s.aluWrite d r).regs = s.regs.set d.val r.1 := rfl
@[simp] theorem State.pc_aluWrite (d : RegIdx) (r : Word × Flags) : (s.aluWrite d r).pc = s.pc + 4 := rfl
@[simp] theorem State.sp_aluWrite (d : RegIdx) (r : Word × Flags) : (s.aluWrite d r).sp = s.sp := rfl
@[simp] theorem State.flags_aluWrite (d : RegIdx) (r : Word × Flags) : (s.aluWrite d r).flags = r.2 := rfl
@[simp] theorem State.cycles_aluWrite (d : RegIdx) (r : Word × Flags) : (s.aluWrite d r).cycles = s.cycles := rfl
@[simp] theorem State.fault_aluWrite (d : RegIdx) (r : Word × Flags) : (s.aluWrite d r).fault = s.fault := rfl
@[simp] theorem State.mem_aluWrite (d : RegIdx) (r : Word × Flags) : (s.aluWrite d r).mem = s.mem := rfl
@[simp] theorem State.inputs_aluWrite (d : RegIdx) (r : Word × Flags) : (s.aluWrite d r).inputs = s.inputs := rfl
@[simp] theorem State.portLog_aluWrite (d : RegIdx) (r : Word × Flags) : (s.aluWrite d r).portLog = s.portLog := rfl
@[simp] theorem State.read8_aluWrite (j : Word) (d : RegIdx) (r : Word × Flags) : (s.aluWrite d r).read8 j = s.read8 j := rfl
@[simp] theorem State.read16_aluWrite (j : Word) (d : RegIdx) (r : Word × Flags) : (s.aluWrite d r).read16 j = s.read16 j := rfl

@[simp] theorem State.regs_aluDiscard (r : Word × Flags) : (s.aluDiscard r).regs = s.regs := rfl
@[simp] theorem State.pc_aluDiscard (r : Word × Flags) : (s.aluDiscard r).pc = s.pc + 4 := rfl
@[simp] theorem State.sp_aluDiscard (r : Word × Flags) : (s.aluDiscard r).sp = s.sp := rfl
@[simp] theorem State.flags_aluDiscard (r : Word × Flags) : (s.aluDiscard r).flags = r.2 := rfl
@[simp] theorem State.cycles_aluDiscard (r : Word × Flags) : (s.aluDiscard r).cycles = s.cycles := rfl
@[simp] theorem State.fault_aluDiscard (r : Word × Flags) : (s.aluDiscard r).fault = s.fault := rfl
@[simp] theorem State.mem_aluDiscard (r : Word × Flags) : (s.aluDiscard r).mem = s.mem := rfl
@[simp] theorem State.inputs_aluDiscard (r : Word × Flags) : (s.aluDiscard r).inputs = s.inputs := rfl
@[simp] theorem State.portLog_aluDiscard (r : Word × Flags) : (s.aluDiscard r).portLog = s.portLog := rfl
@[simp] theorem State.reg_aluDiscard (j : RegIdx) (r : Word × Flags) : (s.aluDiscard r).reg j = s.reg j := rfl
@[simp] theorem State.read8_aluDiscard (j : Word) (r : Word × Flags) : (s.aluDiscard r).read8 j = s.read8 j := rfl
@[simp] theorem State.read16_aluDiscard (j : Word) (r : Word × Flags) : (s.aluDiscard r).read16 j = s.read16 j := rfl

@[simp] theorem State.cycles_countCycle : s.countCycle.cycles = s.cycles + 1 := rfl

/-! ## Taking an answer changes the queues only -/

@[simp] theorem State.regs_takeVblank : s.takeVblank.regs = s.regs := by unfold State.takeVblank; split <;> rfl
@[simp] theorem State.pc_takeVblank : s.takeVblank.pc = s.pc := by unfold State.takeVblank; split <;> rfl
@[simp] theorem State.sp_takeVblank : s.takeVblank.sp = s.sp := by unfold State.takeVblank; split <;> rfl
@[simp] theorem State.flags_takeVblank : s.takeVblank.flags = s.flags := by unfold State.takeVblank; split <;> rfl
@[simp] theorem State.cycles_takeVblank : s.takeVblank.cycles = s.cycles := by unfold State.takeVblank; split <;> rfl
@[simp] theorem State.fault_takeVblank : s.takeVblank.fault = s.fault := by unfold State.takeVblank; split <;> rfl
@[simp] theorem State.mem_takeVblank : s.takeVblank.mem = s.mem := by unfold State.takeVblank; split <;> rfl
@[simp] theorem State.portLog_takeVblank : s.takeVblank.portLog = s.portLog := by unfold State.takeVblank; split <;> rfl
@[simp] theorem State.outcomes_takeVblank : s.takeVblank.inputs.outcomes = s.inputs.outcomes := by unfold State.takeVblank; split <;> rfl
@[simp] theorem State.reg_takeVblank (j : RegIdx) : s.takeVblank.reg j = s.reg j := by simp [State.reg]
@[simp] theorem State.read8_takeVblank (j : Word) : s.takeVblank.read8 j = s.read8 j := by simp [State.read8]
@[simp] theorem State.read16_takeVblank (j : Word) : s.takeVblank.read16 j = s.read16 j := by simp [State.read16]

@[simp] theorem State.regs_takeOverlap : s.takeOverlap.regs = s.regs := by unfold State.takeOverlap; split <;> rfl
@[simp] theorem State.pc_takeOverlap : s.takeOverlap.pc = s.pc := by unfold State.takeOverlap; split <;> rfl
@[simp] theorem State.sp_takeOverlap : s.takeOverlap.sp = s.sp := by unfold State.takeOverlap; split <;> rfl
@[simp] theorem State.flags_takeOverlap : s.takeOverlap.flags = s.flags := by unfold State.takeOverlap; split <;> rfl
@[simp] theorem State.cycles_takeOverlap : s.takeOverlap.cycles = s.cycles := by unfold State.takeOverlap; split <;> rfl
@[simp] theorem State.fault_takeOverlap : s.takeOverlap.fault = s.fault := by unfold State.takeOverlap; split <;> rfl
@[simp] theorem State.mem_takeOverlap : s.takeOverlap.mem = s.mem := by unfold State.takeOverlap; split <;> rfl
@[simp] theorem State.portLog_takeOverlap : s.takeOverlap.portLog = s.portLog := by unfold State.takeOverlap; split <;> rfl
@[simp] theorem State.outcomes_takeOverlap : s.takeOverlap.inputs.outcomes = s.inputs.outcomes := by unfold State.takeOverlap; split <;> rfl
@[simp] theorem State.reg_takeOverlap (j : RegIdx) : s.takeOverlap.reg j = s.reg j := by simp [State.reg]
@[simp] theorem State.read8_takeOverlap (j : Word) : s.takeOverlap.read8 j = s.read8 j := by simp [State.read8]
@[simp] theorem State.read16_takeOverlap (j : Word) : s.takeOverlap.read16 j = s.read16 j := by simp [State.read16]

@[simp] theorem State.regs_takeRandom : s.takeRandom.regs = s.regs := by unfold State.takeRandom; split <;> rfl
@[simp] theorem State.pc_takeRandom : s.takeRandom.pc = s.pc := by unfold State.takeRandom; split <;> rfl
@[simp] theorem State.sp_takeRandom : s.takeRandom.sp = s.sp := by unfold State.takeRandom; split <;> rfl
@[simp] theorem State.flags_takeRandom : s.takeRandom.flags = s.flags := by unfold State.takeRandom; split <;> rfl
@[simp] theorem State.cycles_takeRandom : s.takeRandom.cycles = s.cycles := by unfold State.takeRandom; split <;> rfl
@[simp] theorem State.fault_takeRandom : s.takeRandom.fault = s.fault := by unfold State.takeRandom; split <;> rfl
@[simp] theorem State.mem_takeRandom : s.takeRandom.mem = s.mem := by unfold State.takeRandom; split <;> rfl
@[simp] theorem State.portLog_takeRandom : s.takeRandom.portLog = s.portLog := by unfold State.takeRandom; split <;> rfl
@[simp] theorem State.outcomes_takeRandom : s.takeRandom.inputs.outcomes = s.inputs.outcomes := by unfold State.takeRandom; split <;> rfl
@[simp] theorem State.reg_takeRandom (j : RegIdx) : s.takeRandom.reg j = s.reg j := by simp [State.reg]
@[simp] theorem State.read8_takeRandom (j : Word) : s.takeRandom.read8 j = s.read8 j := by simp [State.read8]
@[simp] theorem State.read16_takeRandom (j : Word) : s.takeRandom.read16 j = s.read16 j := by simp [State.read16]

/-! ## Registers -/

@[simp] theorem State.reg_setReg_same (i : RegIdx) (v : Word) : (s.setReg i v).reg i = v := by
  simp [State.reg, State.setReg]

theorem State.reg_setReg_other {i j : RegIdx} (h : j ≠ i) (v : Word) : (s.setReg i v).reg j = s.reg j := by
  have h' : i.val ≠ j.val := fun e => h (Fin.ext e.symm)
  simp [State.reg, State.setReg, h']

theorem State.reg_setReg (i j : RegIdx) (v : Word) : (s.setReg i v).reg j = if j = i then v else s.reg j := by
  by_cases h : j = i
  · subst h; simp
  · simp [h, State.reg_setReg_other]

@[simp] theorem State.reg_aluWrite_same (d : RegIdx) (r : Word × Flags) : (s.aluWrite d r).reg d = r.1 :=
  State.reg_setReg_same s d r.1

theorem State.reg_aluWrite_other {d j : RegIdx} (h : j ≠ d) (r : Word × Flags) :
    (s.aluWrite d r).reg j = s.reg j := State.reg_setReg_other s h r.1

/-! ## Reset -/

@[simp] theorem State.reg_reset (i : RegIdx) : State.reset.reg i = 0 := by
  simp [State.reset, State.reg]

@[simp] theorem State.read8_reset (a : Word) : State.reset.read8 a = 0 := rfl

end Sys2Proof.Machine
end

