-- ==== Sys2Proof/Laws/Memory.lean ====
section
/-! SUPPORT. The memory: what a read sees after a write (for every list, canonical or not), and that every operation
keeps the canonical form. -/
namespace Sys2Proof.Machine

/-! ## Reads after writes -/

theorem Memory.get_insert_same (m : Memory) (k : Nat) (v : Byte) (h : ∀ c ∈ m, c.1 ≠ k) :
    (Memory.insert m k v).get k = v := by
  induction m with
  | nil => simp [Memory.insert, Memory.get]
  | cons c rest ih =>
    have hc : c.1 ≠ k := h c (by simp)
    unfold Memory.insert
    split
    · simp [Memory.get]
    · simp [Memory.get, hc, ih (fun d hd => h d (by simp [hd]))]

theorem Memory.get_insert_other (m : Memory) {j k : Nat} (v : Byte) (h : j ≠ k) :
    (Memory.insert m k v).get j = m.get j := by
  induction m with
  | nil => simp [Memory.insert, Memory.get, Ne.symm h]
  | cons c rest ih =>
    unfold Memory.insert
    split
    · simp [Memory.get, Ne.symm h]
    · simp [Memory.get, ih]

theorem Memory.get_erased (m : Memory) (k : Nat) : Memory.get (m.filter fun c => c.1 != k) k = params.initByte := by
  induction m with
  | nil => rfl
  | cons c rest ih =>
    by_cases hc : c.1 = k
    · simpa [List.filter_cons, hc] using ih
    · simpa [List.filter_cons, hc, Memory.get] using ih

theorem Memory.get_filter_other (m : Memory) {j k : Nat} (h : j ≠ k) :
    Memory.get (m.filter fun c => c.1 != k) j = m.get j := by
  induction m with
  | nil => rfl
  | cons c rest ih =>
    by_cases hc : c.1 = k
    · have : c.1 ≠ j := fun e => h (e.symm.trans hc)
      simpa [List.filter_cons, hc, Memory.get, Ne.symm h] using ih
    · simp [hc, Memory.get, ih]

theorem Memory.get_set_same (m : Memory) (k : Nat) (v : Byte) : (m.set k v).get k = v := by
  simp only [Memory.set]
  split
  · rename_i hv; rw [Memory.get_erased, hv]
  · exact Memory.get_insert_same _ _ _ (by simp)

theorem Memory.get_set_other (m : Memory) {j k : Nat} (v : Byte) (h : j ≠ k) : (m.set k v).get j = m.get j := by
  simp only [Memory.set]
  split
  · exact Memory.get_filter_other m h
  · rw [Memory.get_insert_other _ _ h, Memory.get_filter_other m h]

theorem Memory.read8_write8 (m : Memory) (a b : Word) (v : Byte) :
    (m.write8 a v).read8 b = if b = a then v else m.read8 b := by
  by_cases h : b = a
  · subst h; simp [Memory.read8, Memory.write8, Memory.get_set_same]
  · have : b.toNat ≠ a.toNat := fun e => h (BitVec.eq_of_toNat_eq e)
    simp [Memory.read8, Memory.write8, Memory.get_set_other _ _ this, h]

theorem Memory.read8_write16 (m : Memory) (a b : Word) (v : Word) :
    (m.write16 a v).read8 b = if b = a + 1 then highByte v else if b = a then lowByte v else m.read8 b := by
  simp only [Memory.write16, Memory.read8_write8]

/-- The little-endian round trip of R58, at every address. -/
theorem Memory.read16_write16 (m : Memory) (a : Word) (v : Word) : (m.write16 a v).read16 a = v := by
  simp [Memory.read16, Memory.read8_write16]

/-- A word is read as before when none of its bytes is written. -/
theorem Memory.read16_write16_other (m : Memory) {a b : Word} (v : Word)
    (h : b ≠ a) (h₁ : b ≠ a + 1) (h₂ : b + 1 ≠ a) : (m.write16 a v).read16 b = m.read16 b := by
  have h₃ : b + 1 ≠ a + 1 := by bv_omega
  simp only [Memory.read16, Memory.read8_write16, if_neg h, if_neg h₁, if_neg h₂, if_neg h₃]

theorem State.read8_write8 (s : State) (a b : Word) (v : Byte) :
    (s.write8 a v).read8 b = if b = a then v else s.read8 b := Memory.read8_write8 s.mem a b v

theorem State.read8_write16 (s : State) (a b : Word) (v : Word) :
    (s.write16 a v).read8 b = if b = a + 1 then highByte v else if b = a then lowByte v else s.read8 b :=
  Memory.read8_write16 s.mem a b v

@[simp] theorem State.read16_write16 (s : State) (a v : Word) : (s.write16 a v).read16 a = v :=
  Memory.read16_write16 s.mem a v

theorem State.read8_push16 (s : State) (b v : Word) :
    (s.push16 v).read8 b = if b = s.sp + 1 then highByte v else if b = s.sp then lowByte v else s.read8 b :=
  Memory.read8_write16 s.mem s.sp b v

@[simp] theorem State.read16_push16 (s : State) (v : Word) : (s.push16 v).read16 s.sp = v :=
  Memory.read16_write16 s.mem s.sp v

theorem State.read16_eq (s : State) (a : Word) : s.read16 a = joinBytes (s.read8 a) (s.read8 (a + 1)) := rfl

/-! ## The canonical form -/

theorem Memory.wf_cons {k : Nat} {v : Byte} {rest : Memory} :
    Memory.wf ((k, v) :: rest) = true ↔
      (k < 65536 ∧ v ≠ params.initByte ∧ (∀ c ∈ rest, k < c.1)) ∧ rest.wf = true := by
  simp [Memory.wf, and_assoc]

theorem Memory.wf_filter {m : Memory} (p : Host.Cell → Bool) (h : m.wf = true) : Memory.wf (m.filter p) = true := by
  induction m with
  | nil => exact h
  | cons c rest ih =>
    obtain ⟨⟨hk, hv, hlt⟩, hrest⟩ := Memory.wf_cons.mp h
    rw [List.filter_cons]
    split
    · exact Memory.wf_cons.mpr ⟨⟨hk, hv, fun d hd => hlt d (List.mem_filter.mp hd).1⟩, ih hrest⟩
    · exact ih hrest

theorem Memory.mem_insert {m : Memory} {k : Nat} {v : Byte} {c : Host.Cell} (h : c ∈ Memory.insert m k v) :
    c = (k, v) ∨ c ∈ m := by
  induction m with
  | nil => simpa [Memory.insert] using h
  | cons d rest ih =>
    unfold Memory.insert at h
    split at h
    · simpa using h
    · rcases List.mem_cons.mp h with e | h'
      · exact .inr (by simp [e])
      · rcases ih h' with e | e
        · exact .inl e
        · exact .inr (by simp [e])

theorem Memory.wf_insert {m : Memory} {k : Nat} {v : Byte} (hm : m.wf = true) (hk : k < 65536)
    (hv : v ≠ params.initByte) (hne : ∀ c ∈ m, c.1 ≠ k) : (Memory.insert m k v).wf = true := by
  induction m with
  | nil => exact Memory.wf_cons.mpr ⟨⟨hk, hv, by simp⟩, rfl⟩
  | cons d rest ih =>
    obtain ⟨⟨hd, hdv, hlt⟩, hrest⟩ := Memory.wf_cons.mp hm
    have hdk : d.1 ≠ k := hne d (by simp)
    unfold Memory.insert
    split
    · rename_i hlt'
      refine Memory.wf_cons.mpr ⟨⟨hk, hv, fun c hc => ?_⟩, hm⟩
      rcases List.mem_cons.mp hc with e | hc'
      · subst e; exact hlt'
      · exact lt_trans hlt' (hlt c hc')
    · refine Memory.wf_cons.mpr ⟨⟨hd, hdv, fun c hc => ?_⟩, ih hrest fun c hc => hne c (by simp [hc])⟩
      rcases Memory.mem_insert hc with e | hc'
      · subst e; show d.1 < k; omega
      · exact hlt c hc'

/-- Writing a byte keeps the canonical form. -/
theorem Memory.wf_write8 {m : Memory} (h : m.wf = true) (a : Word) (v : Byte) : (m.write8 a v).wf = true := by
  simp only [Memory.write8, Memory.set]
  split
  · exact Memory.wf_filter _ h
  · exact Memory.wf_insert (Memory.wf_filter _ h) a.isLt (by assumption) (by simp)

/-- Writing a word keeps the canonical form. -/
theorem Memory.wf_write16 {m : Memory} (h : m.wf = true) (a v : Word) : (m.write16 a v).wf = true :=
  Memory.wf_write8 (Memory.wf_write8 h a _) _ _

theorem Memory.wf_reset : State.reset.mem.wf = true := rfl

end Sys2Proof.Machine
end

