-- ==== Sys2Proof/Laws/Ops.lean ====
section
/-! SUPPORT. What the shared operations can do, said once each: results, port calls, answers, blocks of registers. -/
namespace Sys2Proof.Machine

/-! ## Results -/

@[simp] theorem Result.andThen_next (s : State) (k : State → Result) :
    Result.andThen (.next s) k = k s := rfl

@[simp] theorem Result.andThen_fault (f : Fault) (k : State → Result) :
    Result.andThen (.fault f) k = .fault f := rfl

@[simp] theorem Result.andThen_refused (e : Refusal) (k : State → Result) :
    Result.andThen (.refused e) k = .refused e := rfl

theorem Result.andThen_eq_next {r : Result} {k : State → Result} {t : State} :
    r.andThen k = .next t ↔ ∃ s, r = .next s ∧ k s = .next t := by
  cases r <;> simp [Result.andThen]

theorem Result.andThen_eq_fault {r : Result} {k : State → Result} {f : Fault} :
    r.andThen k = .fault f ↔ r = .fault f ∨ ∃ s, r = .next s ∧ k s = .fault f := by
  cases r <;> simp [Result.andThen]

theorem Result.andThen_eq_refused {r : Result} {k : State → Result} {e : Refusal} :
    r.andThen k = .refused e ↔ r = .refused e ∨ ∃ s, r = .next s ∧ k s = .refused e := by
  cases r <;> simp [Result.andThen]

/-! ## Port calls -/

/-- The state after port calls that all succeeded. -/
def State.recordCalls (s : State) (calls : List PortCall) : State :=
  { s with
    inputs := { s.inputs with outcomes := s.inputs.outcomes.drop calls.length }
    portLog := s.portLog ++ calls }

@[simp] theorem State.recordCalls_nil (s : State) : s.recordCalls [] = s := by
  simp [State.recordCalls]

theorem State.recordCalls_cons (s : State) (c : PortCall) (cs : List PortCall) :
    (s.recordCall c).recordCalls cs = s.recordCalls (c :: cs) := by
  simp [State.recordCalls, State.recordCall]

section
variable (s : State) (cs : List PortCall)
@[simp] theorem State.regs_recordCalls : (s.recordCalls cs).regs = s.regs := rfl
@[simp] theorem State.pc_recordCalls : (s.recordCalls cs).pc = s.pc := rfl
@[simp] theorem State.sp_recordCalls : (s.recordCalls cs).sp = s.sp := rfl
@[simp] theorem State.flags_recordCalls : (s.recordCalls cs).flags = s.flags := rfl
@[simp] theorem State.cycles_recordCalls : (s.recordCalls cs).cycles = s.cycles := rfl
@[simp] theorem State.fault_recordCalls : (s.recordCalls cs).fault = s.fault := rfl
@[simp] theorem State.mem_recordCalls : (s.recordCalls cs).mem = s.mem := rfl
@[simp] theorem State.portLog_recordCalls : (s.recordCalls cs).portLog = s.portLog ++ cs := rfl
@[simp] theorem State.outcomes_recordCalls :
    (s.recordCalls cs).inputs.outcomes = s.inputs.outcomes.drop cs.length := rfl
@[simp] theorem State.reg_recordCalls (i : RegIdx) : (s.recordCalls cs).reg i = s.reg i := rfl
@[simp] theorem State.read8_recordCalls (a : Word) : (s.recordCalls cs).read8 a = s.read8 a := rfl
@[simp] theorem State.read16_recordCalls (a : Word) : (s.recordCalls cs).read16 a = s.read16 a := rfl
@[simp] theorem State.vblankAnswer_recordCalls : (s.recordCalls cs).vblankAnswer = s.vblankAnswer := rfl
@[simp] theorem State.overlapAnswer_recordCalls : (s.recordCalls cs).overlapAnswer = s.overlapAnswer := rfl
@[simp] theorem State.randomAnswer_recordCalls (m : Word) :
    (s.recordCalls cs).randomAnswer m = s.randomAnswer m := rfl
end

theorem State.nextError_eq_none_of_healthy {s : State} {n : Nat} (h : s.PortsHealthy (n + 1)) :
    s.nextError = none := by
  unfold State.PortsHealthy at h
  unfold State.nextError
  cases hs : s.inputs.outcomes with
  | nil => rfl
  | cons o rest => simp [hs] at h; simp [h.1]

theorem State.healthy_tail {s : State} {n : Nat} (c : PortCall) (h : s.PortsHealthy (n + 1)) :
    (s.recordCall c).PortsHealthy n := by
  unfold State.PortsHealthy at *
  cases hs : s.inputs.outcomes with
  | nil => simp [hs]
  | cons o rest => simp [hs] at h ⊢; exact h.2

theorem State.healthy_succ {s : State} {n : Nat} (c : PortCall) (h₀ : s.nextError = none)
    (h : (s.recordCall c).PortsHealthy n) : s.PortsHealthy (n + 1) := by
  unfold State.PortsHealthy State.nextError at *
  cases hs : s.inputs.outcomes with
  | nil => simp
  | cons o rest => simp [hs] at h h₀ ⊢; exact ⟨h₀, h⟩

/-- Port calls that do not fail are all made. -/
theorem callPortsFrom_healthy {calls : List PortCall} {s : State} (reached : List PortCall)
    (h : s.PortsHealthy calls.length) : callPortsFrom reached calls s = .next (s.recordCalls calls) := by
  induction calls generalizing reached s with
  | nil => simp [callPortsFrom]
  | cons c cs ih =>
    rw [callPortsFrom, State.nextError_eq_none_of_healthy h]
    simpa [State.recordCalls_cons] using ih (reached ++ [c]) (State.healthy_tail c h)

theorem callPorts_healthy {calls : List PortCall} {s : State} (h : s.PortsHealthy calls.length) :
    callPorts calls s = .next (s.recordCalls calls) := callPortsFrom_healthy [] h

/-- Port calls go on only when none failed, and then all are made. -/
theorem callPortsFrom_next {calls reached : List PortCall} {s t : State}
    (h : callPortsFrom reached calls s = .next t) : s.PortsHealthy calls.length ∧ t = s.recordCalls calls := by
  induction calls generalizing reached s with
  | nil => simp only [callPortsFrom, Host.Outcome.next.injEq] at h; simp [h, State.PortsHealthy]
  | cons c cs ih =>
    rw [callPortsFrom] at h
    split at h
    · simp at h
    · rename_i h₀
      obtain ⟨h₁, h₂⟩ := ih h
      exact ⟨State.healthy_succ c h₀ h₁, by rw [h₂, State.recordCalls_cons]⟩

theorem callPorts_next {calls : List PortCall} {s t : State} (h : callPorts calls s = .next t) :
    s.PortsHealthy calls.length ∧ t = s.recordCalls calls := callPortsFrom_next h

theorem callPortsFrom_ne_refused {calls reached : List PortCall} {s : State} {e : Refusal} :
    callPortsFrom reached calls s ≠ .refused e := by
  induction calls generalizing reached s with
  | nil => simp [callPortsFrom]
  | cons c cs ih => rw [callPortsFrom]; split <;> simp [ih]

theorem callPorts_ne_refused {calls : List PortCall} {s : State} {e : Refusal} : callPorts calls s ≠ .refused e :=
  callPortsFrom_ne_refused

/-- The first failing call ends the calls: the ones before it were made, it and the later ones were not. -/
theorem callPortsFrom_fault {calls reached : List PortCall} {s : State} {f : Fault}
    (h : callPortsFrom reached calls s = .fault f) :
    ∃ k e, k < calls.length ∧ s.PortsHealthy k ∧ s.inputs.outcomes[k]? = some (some e) ∧
      f = .peripheralFailure s.pc e (reached ++ calls.take k) := by
  induction calls generalizing reached s with
  | nil => simp [callPortsFrom] at h
  | cons c cs ih =>
    rw [callPortsFrom] at h
    split at h
    · rename_i e he
      refine ⟨0, e, by simp, by simp [State.PortsHealthy], ?_, by simpa using (Host.Outcome.fault.inj h).symm⟩
      unfold State.nextError at he
      cases hs : s.inputs.outcomes <;> simp_all
    · rename_i h₀
      obtain ⟨k, e, hk, hh, ho, hf⟩ := ih h
      refine ⟨k + 1, e, by simpa using hk, State.healthy_succ c h₀ hh, ?_, by simpa using hf⟩
      simpa [State.recordCall] using ho

theorem callPorts_fault {calls : List PortCall} {s : State} {f : Fault} (h : callPorts calls s = .fault f) :
    ∃ k e, k < calls.length ∧ s.PortsHealthy k ∧ s.inputs.outcomes[k]? = some (some e) ∧
      f = .peripheralFailure s.pc e (calls.take k) := by
  simpa using callPortsFrom_fault h

/-- Where the first failing call is call number `k`, the step ends there. -/
theorem callPortsFrom_failing {calls : List PortCall} {s : State} {k : Nat} {e : PeripheralError}
    (reached : List PortCall) (hk : k < calls.length) (hh : s.PortsHealthy k)
    (ho : s.inputs.outcomes[k]? = some (some e)) :
    callPortsFrom reached calls s = .fault (.peripheralFailure s.pc e (reached ++ calls.take k)) := by
  induction calls generalizing reached s k with
  | nil => simp at hk
  | cons c cs ih =>
    rw [callPortsFrom]
    cases k with
    | zero =>
      have : s.nextError = some e := by
        unfold State.nextError
        cases hs : s.inputs.outcomes <;> simp_all
      simp [this]
    | succ k =>
      rw [State.nextError_eq_none_of_healthy hh]
      have := ih (s := s.recordCall c) (reached ++ [c]) (by simpa using hk) (State.healthy_tail c hh)
        (by simpa [State.recordCall] using ho)
      simpa using this

theorem callPorts_failing {calls : List PortCall} {s : State} {k : Nat} {e : PeripheralError}
    (hk : k < calls.length) (hh : s.PortsHealthy k) (ho : s.inputs.outcomes[k]? = some (some e)) :
    callPorts calls s = .fault (.peripheralFailure s.pc e (calls.take k)) :=
  callPortsFrom_failing [] hk hh ho

/-! ## Answers -/

/-- A draw is inside the asked range. -/
theorem intoRange_le (v max : Word) : (intoRange v max).toNat ≤ max.toNat := by
  have h := Nat.mod_lt v.toNat (show 0 < max.toNat + 1 by omega)
  have hm := max.isLt
  simp only [intoRange, BitVec.toNat_ofNat]
  rw [Nat.mod_eq_of_lt (by omega)]
  omega

/-- A value of the range is drawn as it is. -/
theorem intoRange_of_le {v max : Word} (h : v.toNat ≤ max.toNat) : intoRange v max = v := by
  apply BitVec.eq_of_toNat_eq
  have hv := v.isLt
  have h' : v.toNat % (max.toNat + 1) = v.toNat := Nat.mod_eq_of_lt (by omega)
  rw [intoRange, BitVec.toNat_ofNat, h', Nat.mod_eq_of_lt (by omega)]

theorem State.randomAnswer_le (s : State) (max : Word) : (s.randomAnswer max).toNat ≤ max.toNat := by
  unfold State.randomAnswer
  split <;> exact intoRange_le _ _

/-! ## Blocks of registers (R234, R235) -/

theorem mem_allRegs (i : RegIdx) : i ∈ allRegs := by revert i; decide

theorem nodup_allRegs : allRegs.Nodup := by decide

/-- Slots of two registers do not overlap. -/
theorem slotOf_apart (base : Word) {i j : RegIdx} (h : i ≠ j) :
    slotOf base i ≠ slotOf base j ∧ slotOf base i ≠ slotOf base j + 1 ∧ slotOf base i + 1 ≠ slotOf base j := by
  have hi := i.isLt
  have hj := j.isLt
  have hij : i.val ≠ j.val := fun e => h (Fin.ext e)
  unfold slotOf
  refine ⟨?_, ?_, ?_⟩ <;> bv_omega

/-- Both bytes of a slot lie in the block of 32 bytes. -/
theorem slotOf_mem_savedBlock (base : Word) (i : RegIdx) :
    slotOf base i ∈ savedBlock base ∧ slotOf base i + 1 ∈ savedBlock base := by
  have hi := i.isLt
  refine ⟨List.mem_map.mpr ⟨2 * i.val, by simp; omega, rfl⟩, List.mem_map.mpr ⟨2 * i.val + 1, by simp; omega, ?_⟩⟩
  unfold slotOf
  bv_omega

/-- Storing registers writes memory only. -/
theorem State.storeRegs_other (s : State) (base : Word) (l : List RegIdx) :
    s.storeRegs base l = { s with mem := (s.storeRegs base l).mem } := by
  induction l generalizing s with
  | nil => rfl
  | cons i rest ih => rw [State.storeRegs, ih]; rfl

section
variable (s : State) (base : Word) (l : List RegIdx)
@[simp] theorem State.regs_storeRegs : (s.storeRegs base l).regs = s.regs := by rw [State.storeRegs_other]
@[simp] theorem State.pc_storeRegs : (s.storeRegs base l).pc = s.pc := by rw [State.storeRegs_other]
@[simp] theorem State.sp_storeRegs : (s.storeRegs base l).sp = s.sp := by rw [State.storeRegs_other]
@[simp] theorem State.flags_storeRegs : (s.storeRegs base l).flags = s.flags := by rw [State.storeRegs_other]
@[simp] theorem State.cycles_storeRegs : (s.storeRegs base l).cycles = s.cycles := by rw [State.storeRegs_other]
@[simp] theorem State.fault_storeRegs : (s.storeRegs base l).fault = s.fault := by rw [State.storeRegs_other]
@[simp] theorem State.inputs_storeRegs : (s.storeRegs base l).inputs = s.inputs := by rw [State.storeRegs_other]
@[simp] theorem State.portLog_storeRegs : (s.storeRegs base l).portLog = s.portLog := by rw [State.storeRegs_other]
@[simp] theorem State.reg_storeRegs (j : RegIdx) : (s.storeRegs base l).reg j = s.reg j := by simp [State.reg]
end

theorem State.read8_storeRegs_outside (s : State) (base : Word) (l : List RegIdx) {a : Word}
    (h : a ∉ savedBlock base) : (s.storeRegs base l).read8 a = s.read8 a := by
  induction l generalizing s with
  | nil => rfl
  | cons i rest ih =>
    obtain ⟨h₀, h₁⟩ := slotOf_mem_savedBlock base i
    have n₀ : a ≠ slotOf base i := fun e => h (e ▸ h₀)
    have n₁ : a ≠ slotOf base i + 1 := fun e => h (e ▸ h₁)
    rw [State.storeRegs, ih, State.read8_write16, if_neg n₁, if_neg n₀]

theorem State.read16_storeRegs_untouched (s : State) (base : Word) (l : List RegIdx) {j : RegIdx} (h : j ∉ l) :
    (s.storeRegs base l).read16 (slotOf base j) = s.read16 (slotOf base j) := by
  induction l generalizing s with
  | nil => rfl
  | cons i rest ih =>
    have hji : j ≠ i := fun e => h (by simp [e])
    have hr : j ∉ rest := fun m => h (by simp [m])
    obtain ⟨a₀, a₁, a₂⟩ := slotOf_apart base hji
    rw [State.storeRegs, ih _ hr]
    exact Memory.read16_write16_other _ _ a₀ a₁ a₂

theorem State.read16_storeRegs (s : State) (base : Word) {l : List RegIdx} (hl : l.Nodup) {j : RegIdx} (h : j ∈ l) :
    (s.storeRegs base l).read16 (slotOf base j) = s.reg j := by
  induction l generalizing s with
  | nil => simp at h
  | cons i rest ih =>
    obtain ⟨hi, hr⟩ := List.nodup_cons.mp hl
    rw [State.storeRegs]
    rcases List.mem_cons.mp h with e | h'
    · subst e
      rw [State.read16_storeRegs_untouched _ _ _ hi, State.read16_write16]
    · rw [ih _ hr h']; rfl

theorem State.wf_storeRegs {s : State} (h : s.mem.wf = true) (base : Word) (l : List RegIdx) :
    (s.storeRegs base l).mem.wf = true := by
  induction l generalizing s with
  | nil => exact h
  | cons i rest ih => exact ih (Memory.wf_write16 h _ _)

/-- Loading registers writes registers only. -/
theorem State.loadRegs_other (s : State) (base : Word) (l : List RegIdx) :
    s.loadRegs base l = { s with regs := (s.loadRegs base l).regs } := by
  induction l generalizing s with
  | nil => rfl
  | cons i rest ih => rw [State.loadRegs, ih]; rfl

section
variable (s : State) (base : Word) (l : List RegIdx)
@[simp] theorem State.pc_loadRegs : (s.loadRegs base l).pc = s.pc := by rw [State.loadRegs_other]
@[simp] theorem State.sp_loadRegs : (s.loadRegs base l).sp = s.sp := by rw [State.loadRegs_other]
@[simp] theorem State.flags_loadRegs : (s.loadRegs base l).flags = s.flags := by rw [State.loadRegs_other]
@[simp] theorem State.cycles_loadRegs : (s.loadRegs base l).cycles = s.cycles := by rw [State.loadRegs_other]
@[simp] theorem State.fault_loadRegs : (s.loadRegs base l).fault = s.fault := by rw [State.loadRegs_other]
@[simp] theorem State.mem_loadRegs : (s.loadRegs base l).mem = s.mem := by rw [State.loadRegs_other]
@[simp] theorem State.inputs_loadRegs : (s.loadRegs base l).inputs = s.inputs := by rw [State.loadRegs_other]
@[simp] theorem State.portLog_loadRegs : (s.loadRegs base l).portLog = s.portLog := by rw [State.loadRegs_other]
@[simp] theorem State.read8_loadRegs (a : Word) : (s.loadRegs base l).read8 a = s.read8 a := by simp [State.read8]
end

theorem State.reg_loadRegs (s : State) (base : Word) (l : List RegIdx) (j : RegIdx) :
    (s.loadRegs base l).reg j = if j ∈ l then s.read16 (slotOf base j) else s.reg j := by
  induction l generalizing s with
  | nil => simp [State.loadRegs]
  | cons i rest ih =>
    rw [State.loadRegs, ih, State.read16_setReg, State.reg_setReg]
    by_cases h : j = i <;> simp [h]

/-! ## The slot PUSHF fills (R238) -/

section
variable (s : State)
@[simp] theorem State.regs_storeFlags : s.storeFlags.regs = s.regs := rfl
@[simp] theorem State.pc_storeFlags : s.storeFlags.pc = s.pc := rfl
@[simp] theorem State.sp_storeFlags : s.storeFlags.sp = s.sp := rfl
@[simp] theorem State.flags_storeFlags : s.storeFlags.flags = s.flags := rfl
@[simp] theorem State.cycles_storeFlags : s.storeFlags.cycles = s.cycles := rfl
@[simp] theorem State.fault_storeFlags : s.storeFlags.fault = s.fault := rfl
@[simp] theorem State.inputs_storeFlags : s.storeFlags.inputs = s.inputs := rfl
@[simp] theorem State.portLog_storeFlags : s.storeFlags.portLog = s.portLog := rfl
@[simp] theorem State.reg_storeFlags (i : RegIdx) : s.storeFlags.reg i = s.reg i := rfl

theorem State.read8_storeFlags (a : Word) :
    s.storeFlags.read8 a = if a = s.sp + 1 then 0 else if a = s.sp then packFlags s.flags else s.read8 a := by
  rw [show s.storeFlags = s.write16 s.sp ((packFlags s.flags).zeroExtend 16) from rfl, State.read8_write16]
  have hb : ∀ b : Byte, highByte (b.zeroExtend 16) = 0 ∧ lowByte (b.zeroExtend 16) = b := by decide
  rw [(hb _).1, (hb _).2]
end

/-! ## Words in memory -/

/-- `wordAt` is the model's 16-bit read. -/
theorem wordAt_eq_read16 (s : State) (a : Word) : wordAt s a = s.read16 a := by
  rw [State.read16_eq, wordAt, ← joinBytes_toNat]
  simp

theorem holdsWord_write16 (s : State) (a v : Word) : HoldsWord (s.write16 a v) a v := by
  have e : a ≠ a + 1 := by bv_omega
  exact ⟨by rw [State.read8_write16, if_neg e, if_pos rfl, lowByte_toNat],
    by rw [State.read8_write16, if_pos rfl, highByte_toNat]⟩

theorem memKeptBut_write16 (s : State) (a v : Word) : MemKeptBut (storedAt a) s (s.write16 a v) := by
  intro b hb
  simp only [storedAt, List.mem_cons, List.not_mem_nil, or_false, not_or] at hb
  rw [State.read8_write16, if_neg hb.2, if_neg hb.1]

end Sys2Proof.Machine
end

