-- ==== Sys2Proof/Laws/Step.lean ====
section
/-! SUPPORT. What a step can do, said once (70_reset_and_hazards.md R325), and what fetch reads after a program is
placed. -/
namespace Sys2Proof.Machine

/-- A step that goes on is the decoded instruction's, counted. -/
theorem step_next {s t : State} (h : step s = .next t) :
    s.fault = none ∧ ∃ i u, decodeFields s.fetch = .ok i ∧ exec i s = .next u ∧ t = u.countCycle := by
  unfold step at h
  split at h
  · simp at h
  · rename_i hf
    split at h
    · simp [raise] at h
    · rename_i i hi
      obtain ⟨u, hu, ht⟩ := Result.andThen_eq_next.mp h
      exact ⟨hf, i, u, hi, hu, by simpa using ht.symm⟩

/-- A step that faults met an invalid opcode or a fault of the decoded instruction. -/
theorem step_fault {s : State} {f : Fault} (h : step s = .fault f) :
    s.fault = none ∧ ((∃ e, decodeFields s.fetch = .error e ∧ f = .invalidOpcode s.pc s.fetch.op) ∨
      ∃ i, decodeFields s.fetch = .ok i ∧ exec i s = .fault f) := by
  unfold step at h
  split at h
  · simp at h
  · rename_i hf
    refine ⟨hf, ?_⟩
    split at h
    · rename_i e he
      exact .inl ⟨e, he, by simpa [raise] using h.symm⟩
    · rename_i i hi
      refine .inr ⟨i, hi, ?_⟩
      rcases Result.andThen_eq_fault.mp h with h' | ⟨u, _, hu⟩
      · exact h'
      · simp at hu

/-- A conditional transfer goes on only with a condition that has a value, one way or the other. -/
theorem whenCond_next {c : Cond} {s go t : State} (h : whenCond c s go = .next t) :
    (evalCond c s.flags = some true ∧ t = go) ∨ (evalCond c s.flags = some false ∧ t = s.advance) := by
  unfold whenCond at h
  split at h
  · simp [raise] at h
  · rename_i hc; exact .inl ⟨hc, by simpa using h.symm⟩
  · rename_i hc; exact .inr ⟨hc, by simpa using h.symm⟩

theorem whenCond_fault {c : Cond} {s go : State} {f : Fault} (h : whenCond c s go = .fault f) :
    c = .reserved ∧ f = .reservedCondition s.pc := by
  unfold whenCond at h
  split at h
  · rename_i hc
    refine ⟨?_, by simpa [raise] using h.symm⟩
    cases c <;> simp [evalCond] at hc ⊢
  · simp at h
  · simp at h

/-- The instruction placed where the next step fetches is what it fetches, also across the wrap (R57). -/
theorem fetch_placeNext (s : State) (w : Fields) : (s.placeNext w).fetch = w := by
  have hf : (s.placeNext w).fetch = (s.place s.pc w).fetch := rfl
  have e₁ : s.pc ≠ s.pc + 1 := by bv_omega
  have e₂ : s.pc ≠ s.pc + 2 := by bv_omega
  have e₃ : s.pc ≠ s.pc + 3 := by bv_omega
  have e₄ : s.pc + 1 ≠ s.pc + 2 := by bv_omega
  have e₅ : s.pc + 1 ≠ s.pc + 3 := by bv_omega
  have e₆ : s.pc + 2 ≠ s.pc + 3 := by bv_omega
  rw [hf]
  simp only [State.fetch, State.place, State.pc_write8, State.read8_write8, if_neg e₁, if_neg e₂, if_neg e₃, if_neg e₄, if_neg e₅,
    if_neg e₆, if_true]

@[simp] theorem fault_placeNext (s : State) (w : Fields) : (s.placeNext w).fault = none := rfl

end Sys2Proof.Machine
end

