-- ==== Sys2Proof/Laws/Exec.lean ====
section
/-! SUPPORT. What each shape of instruction does when it goes on, and when it does not: the lemmas that proofs about
`exec` cite instead of unfolding the shapes again. -/
namespace Sys2Proof.Machine

variable {s t : State}

/-! ## Peripheral shapes -/

theorem sendCalls_next {calls : List PortCall} (h : sendCalls calls s = .next t) :
    s.PortsHealthy calls.length ∧ t = (s.recordCalls calls).advance := by
  obtain ⟨u, hu, ht⟩ := Result.andThen_eq_next.mp h
  obtain ⟨hh, rfl⟩ := callPorts_next hu
  exact ⟨hh, (Host.Outcome.next.inj ht).symm⟩

theorem sendCalls_healthy {calls : List PortCall} (h : s.PortsHealthy calls.length) :
    sendCalls calls s = .next (s.recordCalls calls).advance := by
  rw [sendCalls, callPorts_healthy h]; rfl

theorem drawSprite_next {a : Address} {x y : RegIdx} (h : drawSprite a x y s = .next t) :
    s.PortsHealthy 1 ∧
      t = ((s.recordCalls [.gpuDraw (a.value s) (s.reg x) (s.reg y)]).takeOverlap.setCarry s.overlapAnswer).advance := by
  obtain ⟨u, hu, ht⟩ := Result.andThen_eq_next.mp h
  obtain ⟨hh, rfl⟩ := callPorts_next hu
  exact ⟨hh, (Host.Outcome.next.inj ht).symm⟩

theorem drawSprite_healthy {a : Address} {x y : RegIdx} (h : s.PortsHealthy 1) :
    drawSprite a x y s =
      .next ((s.recordCalls [.gpuDraw (a.value s) (s.reg x) (s.reg y)]).takeOverlap.setCarry s.overlapAnswer).advance := by
  rw [drawSprite, callPorts_healthy (calls := [_]) h]; rfl

theorem execRnd_next {x : RegIdx} {m : Word} (h : execRnd x m s = .next t) :
    s.PortsHealthy 1 ∧
      t = ((s.recordCalls [.rngNextInRange m]).takeRandom.setReg x (s.randomAnswer m)).advance := by
  obtain ⟨u, hu, ht⟩ := Result.andThen_eq_next.mp h
  obtain ⟨hh, rfl⟩ := callPorts_next hu
  exact ⟨hh, (Host.Outcome.next.inj ht).symm⟩

theorem execRnd_healthy {x : RegIdx} {m : Word} (h : s.PortsHealthy 1) :
    execRnd x m s = .next ((s.recordCalls [.rngNextInRange m]).takeRandom.setReg x (s.randomAnswer m)).advance := by
  rw [execRnd, callPorts_healthy (calls := [_]) h]; rfl

/-- The state VBLNK leaves. -/
theorem execVblnk_healthy (h : s.PortsHealthy 1) :
    execVblnk s = .next (if s.vblankAnswer = true then (s.recordCalls [.gpuVblank]).takeVblank.advance
      else (s.recordCalls [.gpuVblank]).takeVblank.jump s.pc) := by
  rw [execVblnk, callPorts_healthy (calls := [_]) h]
  simp only [Result.andThen_next, State.vblankAnswer_recordCalls, State.pc_recordCalls]
  cases s.vblankAnswer <;> simp

theorem execVblnk_next (h : execVblnk s = .next t) :
    s.PortsHealthy 1 ∧ t = if s.vblankAnswer = true then (s.recordCalls [.gpuVblank]).takeVblank.advance
      else (s.recordCalls [.gpuVblank]).takeVblank.jump s.pc := by
  obtain ⟨u, hu, -⟩ := Result.andThen_eq_next.mp h
  have hh := (callPorts_next hu).1
  exact ⟨hh, Host.Outcome.next.inj (h.symm.trans (execVblnk_healthy hh))⟩

/-- The calls of PAL are the sixteen palette writes (R272). -/
theorem paletteCalls_eq (a : Word) : allRegs.map (paletteCall s a) = paletteWrites s a := by
  simp [allRegs, paletteWrites, paletteCall, List.ofFn_succ]

theorem loadPalette_eq (a : Address) : loadPalette a s = sendCalls (paletteWrites s (a.value s)) s := by
  rw [loadPalette, paletteCalls_eq]

/-- Port calls do not look at the step counter. -/
theorem callPortsFrom_cycles (reached calls : List PortCall) (n : Nat) :
    callPortsFrom reached calls { s with cycles := n } =
      (callPortsFrom reached calls s).andThen fun t => .next { t with cycles := n } := by
  induction calls generalizing reached s with
  | nil => rfl
  | cons c cs ih =>
    have hn : State.nextError { s with cycles := n } = s.nextError := rfl
    rw [callPortsFrom, callPortsFrom, hn]
    cases s.nextError with
    | none => exact ih (s := s.recordCall c) _
    | some e => rfl

/-- Port calls do not look at `sp`. -/
theorem callPortsFrom_sp (reached calls : List PortCall) (v : Word) :
    callPortsFrom reached calls { s with sp := v } =
      (callPortsFrom reached calls s).andThen fun t => .next { t with sp := v } := by
  induction calls generalizing reached s with
  | nil => rfl
  | cons c cs ih =>
    have hn : State.nextError { s with sp := v } = s.nextError := rfl
    rw [callPortsFrom, callPortsFrom, hn]
    cases s.nextError with
    | none => exact ih (s := s.recordCall c) _
    | some e => rfl

/-! ## ALU shapes -/

theorem aluFrame_aluWrite (d : RegIdx) (r : Word × Flags) : AluFrame (some d) s (s.aluWrite d r) := by
  refine ⟨fun j hj => ?_, fun _ _ => rfl, rfl, rfl, rfl, rfl, rfl, rfl⟩
  exact State.reg_aluWrite_other s (by simpa using hj) r

theorem aluFrame_aluDiscard (r : Word × Flags) : AluFrame none s (s.aluDiscard r) :=
  ⟨fun _ _ => rfl, fun _ _ => rfl, rfl, rfl, rfl, rfl, rfl, rfl⟩

/-! ## Division -/

theorem aluDivide_next {f : Word → Word → Flags → Option (Word × Flags)} {d x : RegIdx} {b : Source}
    (h : aluDivide f d x b s = .next t) :
    ∃ r, f (s.reg x) (b.value s) s.flags = some r ∧ t = s.aluWrite d r := by
  unfold aluDivide at h
  split at h
  · simp [raise] at h
  · rename_i r hr; exact ⟨r, hr, (Host.Outcome.next.inj h).symm⟩

/-- `div16` and `mod16` keep `O`. -/
theorem div16_overflow {a b : Word} {f : Flags} {r : Word × Flags} (h : div16 a b f = some r) : r.2.o = f.o := by
  unfold div16 at h
  split at h
  · simp at h
  · simp at h; rw [← h]

theorem mod16_overflow {a b : Word} {f : Flags} {r : Word × Flags} (h : mod16 a b f = some r) : r.2.o = f.o := by
  unfold mod16 at h
  split at h
  · simp at h
  · simp at h; rw [← h]

/-! ## What no instruction writes -/

/-- No meaning touches the step counter or the latch: `step` counts, and only a faulting step latches (R295, R325). -/
theorem exec_keeps {i : Instr} (h : exec i s = .next t) : t.cycles = s.cycles ∧ t.fault = s.fault := by
  cases i
  case cls | bgc | spr | flip | snd0 | snd1 | snd2 | snd3 | snp | sng | pal | palR =>
    obtain ⟨-, rfl⟩ := sendCalls_next h; exact ⟨rfl, rfl⟩
  case drw | drwR => obtain ⟨-, rfl⟩ := drawSprite_next h; simp
  case rnd => obtain ⟨-, rfl⟩ := execRnd_next h; simp
  case vblnk => obtain ⟨-, rfl⟩ := execVblnk_next h; split <;> simp
  case divi | div | div3 | modi | mod | mod3 => obtain ⟨-, -, rfl⟩ := aluDivide_next h; exact ⟨rfl, rfl⟩
  case jcc | callcc => obtain ⟨-, rfl⟩ | ⟨-, rfl⟩ := whenCond_next h <;> exact ⟨rfl, rfl⟩
  case jme => obtain rfl := Host.Outcome.next.inj h; split <;> exact ⟨rfl, rfl⟩
  case pushall | popall => obtain rfl := Host.Outcome.next.inj h; simp
  all_goals (obtain rfl := Host.Outcome.next.inj h; exact ⟨rfl, rfl⟩)

end Sys2Proof.Machine
end

