-- ==== Sys2Proof/Laws/Equations.lean ====
section
/-! SUPPORT. What `exec` answers on each instruction, one equation each, true by rfl: proofs rewrite with these and never
unfold a meaning. -/
namespace Sys2Proof.Machine

variable (s : State)

theorem exec_nop : exec .nop s = .next s.advance := rfl
theorem exec_cls : exec .cls s = sendCalls [.gpuClearFg, .gpuClearBg] s := rfl
theorem exec_vblnk : exec .vblnk s = execVblnk s := rfl
theorem exec_bgc (n : Nibble) : exec (.bgc n) s = sendCalls [.gpuBg n] s := rfl
theorem exec_spr (width height : Byte) : exec (.spr width height) s =
    sendCalls [.gpuSpriteW width, .gpuSpriteH height] s := rfl
theorem exec_drw (x y : RegIdx) (imm : Word) : exec (.drw x y imm) s = drawSprite (.abs imm) x y s := rfl
theorem exec_drwR (z x y : RegIdx) : exec (.drwR z x y) s = drawSprite (.atReg z) x y s := rfl
theorem exec_rnd (x : RegIdx) (imm : Word) : exec (.rnd x imm) s = execRnd x imm s := rfl
theorem exec_flip (h v : Bool) : exec (.flip h v) s = sendCalls [.gpuHflip h, .gpuVflip v] s := rfl
theorem exec_snd0 : exec .snd0 s = sendCalls [.spuStop] s := rfl
theorem exec_snd1 (imm : Word) : exec (.snd1 imm) s = sendCalls [.spuPlayFixed params.toneHz.snd1 imm] s := rfl
theorem exec_snd2 (imm : Word) : exec (.snd2 imm) s = sendCalls [.spuPlayFixed params.toneHz.snd2 imm] s := rfl
theorem exec_snd3 (imm : Word) : exec (.snd3 imm) s = sendCalls [.spuPlayFixed params.toneHz.snd3 imm] s := rfl
theorem exec_snp (x : RegIdx) (imm : Word) : exec (.snp x imm) s =
    sendCalls [.spuPlayTone (s.read16 (s.reg x)) imm] s := rfl
theorem exec_sng (ad : Byte) (srvt : Word) : exec (.sng ad srvt) s = sendCalls [.spuSetup ad srvt] s := rfl
theorem exec_jmp (imm : Word) : exec (.jmp imm) s = .next (s.jump imm) := rfl
theorem exec_jcc (c : Cond) (target : Word) : exec (.jcc c target) s = whenCond c s (s.jump target) := rfl
theorem exec_jme (x y : RegIdx) (imm : Word) : exec (.jme x y imm) s =
    .next (if s.reg x = s.reg y then s.jump imm else s.advance) := rfl
theorem exec_call (imm : Word) : exec (.call imm) s = .next (s.callTo imm) := rfl
theorem exec_ret : exec .ret s = .next (s.dropSlot.jump s.popped) := rfl
theorem exec_jmpR (x : RegIdx) : exec (.jmpR x) s = .next (s.jump (s.reg x)) := rfl
theorem exec_callcc (c : Cond) (target : Word) : exec (.callcc c target) s = whenCond c s (s.callTo target) := rfl
theorem exec_callR (x : RegIdx) : exec (.callR x) s = .next (s.callTo (s.reg x)) := rfl
theorem exec_ldi (x : RegIdx) (imm : Word) : exec (.ldi x imm) s = .next (s.setReg x imm).advance := rfl
theorem exec_ldiSp (imm : Word) : exec (.ldiSp imm) s = .next (s.setSp imm).advance := rfl
theorem exec_ldm (x : RegIdx) (imm : Word) : exec (.ldm x imm) s = .next (s.setReg x (s.read16 imm)).advance := rfl
theorem exec_ldmRr (x y : RegIdx) : exec (.ldmRr x y) s = .next (s.setReg x (s.read16 (s.reg y))).advance := rfl
theorem exec_stm (x : RegIdx) (imm : Word) : exec (.stm x imm) s = .next (s.write16 imm (s.reg x)).advance := rfl
theorem exec_stmRr (x y : RegIdx) : exec (.stmRr x y) s = .next (s.write16 (s.reg y) (s.reg x)).advance := rfl
theorem exec_addi (x : RegIdx) (imm : Word) : exec (.addi x imm) s =
    .next (s.aluWrite x (add16 (s.reg x) imm s.flags)) := rfl
theorem exec_add (x y : RegIdx) : exec (.add x y) s =
    .next (s.aluWrite x (add16 (s.reg x) (s.reg y) s.flags)) := rfl
theorem exec_add3 (z x y : RegIdx) : exec (.add3 z x y) s =
    .next (s.aluWrite z (add16 (s.reg x) (s.reg y) s.flags)) := rfl
theorem exec_subi (x : RegIdx) (imm : Word) : exec (.subi x imm) s =
    .next (s.aluWrite x (sub16 (s.reg x) imm s.flags)) := rfl
theorem exec_sub (x y : RegIdx) : exec (.sub x y) s =
    .next (s.aluWrite x (sub16 (s.reg x) (s.reg y) s.flags)) := rfl
theorem exec_sub3 (z x y : RegIdx) : exec (.sub3 z x y) s =
    .next (s.aluWrite z (sub16 (s.reg x) (s.reg y) s.flags)) := rfl
theorem exec_cmpi (x : RegIdx) (imm : Word) : exec (.cmpi x imm) s =
    .next (s.aluDiscard (sub16 (s.reg x) imm s.flags)) := rfl
theorem exec_cmp (x y : RegIdx) : exec (.cmp x y) s =
    .next (s.aluDiscard (sub16 (s.reg x) (s.reg y) s.flags)) := rfl
theorem exec_andi (x : RegIdx) (imm : Word) : exec (.andi x imm) s =
    .next (s.aluWrite x (and16 (s.reg x) imm s.flags)) := rfl
theorem exec_and (x y : RegIdx) : exec (.and x y) s =
    .next (s.aluWrite x (and16 (s.reg x) (s.reg y) s.flags)) := rfl
theorem exec_and3 (z x y : RegIdx) : exec (.and3 z x y) s =
    .next (s.aluWrite z (and16 (s.reg x) (s.reg y) s.flags)) := rfl
theorem exec_tsti (x : RegIdx) (imm : Word) : exec (.tsti x imm) s =
    .next (s.aluDiscard (and16 (s.reg x) imm s.flags)) := rfl
theorem exec_tst (x y : RegIdx) : exec (.tst x y) s =
    .next (s.aluDiscard (and16 (s.reg x) (s.reg y) s.flags)) := rfl
theorem exec_ori (x : RegIdx) (imm : Word) : exec (.ori x imm) s =
    .next (s.aluWrite x (or16 (s.reg x) imm s.flags)) := rfl
theorem exec_or (x y : RegIdx) : exec (.or x y) s = .next (s.aluWrite x (or16 (s.reg x) (s.reg y) s.flags)) := rfl
theorem exec_or3 (z x y : RegIdx) : exec (.or3 z x y) s =
    .next (s.aluWrite z (or16 (s.reg x) (s.reg y) s.flags)) := rfl
theorem exec_xori (x : RegIdx) (imm : Word) : exec (.xori x imm) s =
    .next (s.aluWrite x (xor16 (s.reg x) imm s.flags)) := rfl
theorem exec_xor (x y : RegIdx) : exec (.xor x y) s =
    .next (s.aluWrite x (xor16 (s.reg x) (s.reg y) s.flags)) := rfl
theorem exec_xor3 (z x y : RegIdx) : exec (.xor3 z x y) s =
    .next (s.aluWrite z (xor16 (s.reg x) (s.reg y) s.flags)) := rfl
theorem exec_muli (x : RegIdx) (imm : Word) : exec (.muli x imm) s =
    .next (s.aluWrite x (mul16 (s.reg x) imm s.flags)) := rfl
theorem exec_mul (x y : RegIdx) : exec (.mul x y) s =
    .next (s.aluWrite x (mul16 (s.reg x) (s.reg y) s.flags)) := rfl
theorem exec_mul3 (z x y : RegIdx) : exec (.mul3 z x y) s =
    .next (s.aluWrite z (mul16 (s.reg x) (s.reg y) s.flags)) := rfl
theorem exec_divi (x : RegIdx) (imm : Word) : exec (.divi x imm) s = aluDivide div16 x x (.imm imm) s := rfl
theorem exec_div (x y : RegIdx) : exec (.div x y) s = aluDivide div16 x x (.reg y) s := rfl
theorem exec_div3 (z x y : RegIdx) : exec (.div3 z x y) s = aluDivide div16 z x (.reg y) s := rfl
theorem exec_modi (x : RegIdx) (imm : Word) : exec (.modi x imm) s = aluDivide mod16 x x (.imm imm) s := rfl
theorem exec_mod (x y : RegIdx) : exec (.mod x y) s = aluDivide mod16 x x (.reg y) s := rfl
theorem exec_mod3 (z x y : RegIdx) : exec (.mod3 z x y) s = aluDivide mod16 z x (.reg y) s := rfl
theorem exec_shl (x : RegIdx) (n : Nibble) : exec (.shl x n) s =
    .next (s.aluWrite x (shl16 (s.reg x) n s.flags)) := rfl
theorem exec_shr (x : RegIdx) (n : Nibble) : exec (.shr x n) s =
    .next (s.aluWrite x (shr16 (s.reg x) n s.flags)) := rfl
theorem exec_push (x : RegIdx) : exec (.push x) s = .next (s.push16 (s.reg x)).advance := rfl
theorem exec_pop (x : RegIdx) : exec (.pop x) s = .next (s.dropSlot.setReg x s.popped).advance := rfl
theorem exec_pushall : exec .pushall s = .next ((s.storeRegs s.sp allRegs).setSp (s.sp + 32)).advance := rfl
theorem exec_popall : exec .popall s = .next ((s.setSp (s.sp - 32)).loadRegs (s.sp - 32) allRegs).advance := rfl
theorem exec_pushf : exec .pushf s = .next (s.storeFlags.setSp (s.sp + 2)).advance := rfl
theorem exec_popf : exec .popf s = .next (s.dropSlot.setFlags (unpackFlags s.popped)).advance := rfl
theorem exec_pal (imm : Word) : exec (.pal imm) s = loadPalette (.abs imm) s := rfl
theorem exec_palR (x : RegIdx) : exec (.palR x) s = loadPalette (.inReg x) s := rfl
theorem exec_noti (x : RegIdx) (imm : Word) : exec (.noti x imm) s = .next (s.aluWrite x (not16 imm s.flags)) := rfl
theorem exec_notR (x : RegIdx) : exec (.notR x) s = .next (s.aluWrite x (not16 (s.reg x) s.flags)) := rfl
theorem exec_notRr (x y : RegIdx) : exec (.notRr x y) s = .next (s.aluWrite x (not16 (s.reg y) s.flags)) := rfl
theorem exec_negi (x : RegIdx) (imm : Word) : exec (.negi x imm) s = .next (s.aluWrite x (neg16 imm s.flags)) := rfl
theorem exec_negR (x : RegIdx) : exec (.negR x) s = .next (s.aluWrite x (neg16 (s.reg x) s.flags)) := rfl
theorem exec_negRr (x y : RegIdx) : exec (.negRr x y) s = .next (s.aluWrite x (neg16 (s.reg y) s.flags)) := rfl

end Sys2Proof.Machine
end

