-- ==== Sys2Proof/Laws/PerInstr.lean ====
section
/-! SUPPORT. One law per instruction: its encoding starts with the opcode byte that selects its own form and no other
(30_encoding.md R76, R78). -/
namespace Sys2Proof.Laws.Encoding

/-- The opcode byte of the encoding selects the instruction's form. -/
def Statement (i : Instr) : Prop := formOf i.fields.op = some i.form

theorem nop : Statement .nop := formOf_opcode .nop
theorem cls : Statement .cls := formOf_opcode .cls
theorem vblnk : Statement .vblnk := formOf_opcode .vblnk
theorem bgc (n : Nibble) : Statement (.bgc n) := formOf_opcode .bgc
theorem spr (width height : Byte) : Statement (.spr width height) := formOf_opcode .spr
theorem drw (x y : RegIdx) (imm : Word) : Statement (.drw x y imm) := formOf_opcode .drw
theorem drwR (z x y : RegIdx) : Statement (.drwR z x y) := formOf_opcode .drwR
theorem rnd (x : RegIdx) (imm : Word) : Statement (.rnd x imm) := formOf_opcode .rnd
theorem flip (h v : Bool) : Statement (.flip h v) := formOf_opcode .flip
theorem snd0 : Statement .snd0 := formOf_opcode .snd0
theorem snd1 (imm : Word) : Statement (.snd1 imm) := formOf_opcode .snd1
theorem snd2 (imm : Word) : Statement (.snd2 imm) := formOf_opcode .snd2
theorem snd3 (imm : Word) : Statement (.snd3 imm) := formOf_opcode .snd3
theorem snp (x : RegIdx) (imm : Word) : Statement (.snp x imm) := formOf_opcode .snp
theorem sng (ad : Byte) (srvt : Word) : Statement (.sng ad srvt) := formOf_opcode .sng
theorem jmp (imm : Word) : Statement (.jmp imm) := formOf_opcode .jmp
theorem jcc (c : Cond) (target : Word) : Statement (.jcc c target) := formOf_opcode .jcc
theorem jme (x y : RegIdx) (imm : Word) : Statement (.jme x y imm) := formOf_opcode .jme
theorem call (imm : Word) : Statement (.call imm) := formOf_opcode .call
theorem ret : Statement .ret := formOf_opcode .ret
theorem jmpR (x : RegIdx) : Statement (.jmpR x) := formOf_opcode .jmpR
theorem callcc (c : Cond) (target : Word) : Statement (.callcc c target) := formOf_opcode .callcc
theorem callR (x : RegIdx) : Statement (.callR x) := formOf_opcode .callR
theorem ldi (x : RegIdx) (imm : Word) : Statement (.ldi x imm) := formOf_opcode .ldi
theorem ldiSp (imm : Word) : Statement (.ldiSp imm) := formOf_opcode .ldiSp
theorem ldm (x : RegIdx) (imm : Word) : Statement (.ldm x imm) := formOf_opcode .ldm
theorem ldmRr (x y : RegIdx) : Statement (.ldmRr x y) := formOf_opcode .ldmRr
theorem stm (x : RegIdx) (imm : Word) : Statement (.stm x imm) := formOf_opcode .stm
theorem stmRr (x y : RegIdx) : Statement (.stmRr x y) := formOf_opcode .stmRr
theorem addi (x : RegIdx) (imm : Word) : Statement (.addi x imm) := formOf_opcode .addi
theorem add (x y : RegIdx) : Statement (.add x y) := formOf_opcode .add
theorem add3 (z x y : RegIdx) : Statement (.add3 z x y) := formOf_opcode .add3
theorem subi (x : RegIdx) (imm : Word) : Statement (.subi x imm) := formOf_opcode .subi
theorem sub (x y : RegIdx) : Statement (.sub x y) := formOf_opcode .sub
theorem sub3 (z x y : RegIdx) : Statement (.sub3 z x y) := formOf_opcode .sub3
theorem cmpi (x : RegIdx) (imm : Word) : Statement (.cmpi x imm) := formOf_opcode .cmpi
theorem cmp (x y : RegIdx) : Statement (.cmp x y) := formOf_opcode .cmp
theorem andi (x : RegIdx) (imm : Word) : Statement (.andi x imm) := formOf_opcode .andi
theorem and (x y : RegIdx) : Statement (.and x y) := formOf_opcode .and
theorem and3 (z x y : RegIdx) : Statement (.and3 z x y) := formOf_opcode .and3
theorem tsti (x : RegIdx) (imm : Word) : Statement (.tsti x imm) := formOf_opcode .tsti
theorem tst (x y : RegIdx) : Statement (.tst x y) := formOf_opcode .tst
theorem ori (x : RegIdx) (imm : Word) : Statement (.ori x imm) := formOf_opcode .ori
theorem or (x y : RegIdx) : Statement (.or x y) := formOf_opcode .or
theorem or3 (z x y : RegIdx) : Statement (.or3 z x y) := formOf_opcode .or3
theorem xori (x : RegIdx) (imm : Word) : Statement (.xori x imm) := formOf_opcode .xori
theorem xor (x y : RegIdx) : Statement (.xor x y) := formOf_opcode .xor
theorem xor3 (z x y : RegIdx) : Statement (.xor3 z x y) := formOf_opcode .xor3
theorem muli (x : RegIdx) (imm : Word) : Statement (.muli x imm) := formOf_opcode .muli
theorem mul (x y : RegIdx) : Statement (.mul x y) := formOf_opcode .mul
theorem mul3 (z x y : RegIdx) : Statement (.mul3 z x y) := formOf_opcode .mul3
theorem divi (x : RegIdx) (imm : Word) : Statement (.divi x imm) := formOf_opcode .divi
theorem div (x y : RegIdx) : Statement (.div x y) := formOf_opcode .div
theorem div3 (z x y : RegIdx) : Statement (.div3 z x y) := formOf_opcode .div3
theorem modi (x : RegIdx) (imm : Word) : Statement (.modi x imm) := formOf_opcode .modi
theorem mod (x y : RegIdx) : Statement (.mod x y) := formOf_opcode .mod
theorem mod3 (z x y : RegIdx) : Statement (.mod3 z x y) := formOf_opcode .mod3
theorem shl (x : RegIdx) (n : Nibble) : Statement (.shl x n) := formOf_opcode .shl
theorem shr (x : RegIdx) (n : Nibble) : Statement (.shr x n) := formOf_opcode .shr
theorem push (x : RegIdx) : Statement (.push x) := formOf_opcode .push
theorem pop (x : RegIdx) : Statement (.pop x) := formOf_opcode .pop
theorem pushall : Statement .pushall := formOf_opcode .pushall
theorem popall : Statement .popall := formOf_opcode .popall
theorem pushf : Statement .pushf := formOf_opcode .pushf
theorem popf : Statement .popf := formOf_opcode .popf
theorem pal (imm : Word) : Statement (.pal imm) := formOf_opcode .pal
theorem palR (x : RegIdx) : Statement (.palR x) := formOf_opcode .palR
theorem noti (x : RegIdx) (imm : Word) : Statement (.noti x imm) := formOf_opcode .noti
theorem notR (x : RegIdx) : Statement (.notR x) := formOf_opcode .notR
theorem notRr (x y : RegIdx) : Statement (.notRr x y) := formOf_opcode .notRr
theorem negi (x : RegIdx) (imm : Word) : Statement (.negi x imm) := formOf_opcode .negi
theorem negR (x : RegIdx) : Statement (.negR x) := formOf_opcode .negR
theorem negRr (x y : RegIdx) : Statement (.negRr x y) := formOf_opcode .negRr

end Sys2Proof.Laws.Encoding
end

