-- ==== Sys2Proof/Tests/Slice0.lean ====
section
/-! SUPPORT. The model's own tests: the well-formedness smoke test, decoding of words written out from the spec, one-step
tests whose expected values are the vectors of 95_test_vectors.md, and a witness for every statement with hypotheses. -/
namespace Sys2Proof.Tests

open Sys2Proof Sys2Proof.Machine

/-! ## Helpers -/

/-- Four flags as the vectors write them: `C`, `Z`, `O`, `N` as 0 or 1. -/
def czon (c z o n : Nat) : Flags := { c := c == 1, z := z == 1, o := o == 1, n := n == 1 }

/-- The reset state with what a vector's "before" column lists. -/
def start (regs : List (RegIdx × Word) := []) (flags : Flags := czon 0 0 0 0) (pc : Word := 0) (sp : Word := 0xFDF0)
    (mem : List (Word × Byte) := []) (outcomes : List (Option PeripheralError) := []) (vblank overlap : List Bool := [])
    (random : List Word := []) : State :=
  let s := regs.foldl (fun s r => s.setReg r.1 r.2) (State.launch mem)
  { s with
    flags := flags
    pc := pc
    sp := sp
    inputs := { outcomes := outcomes, vblank := vblank, overlap := overlap, random := random, draws := 0 } }

/-- One step on the instruction word `w` placed at `pc`. -/
def runs (w : Nat) (s : State) : Result := step (s.withFetchWord 32 w)

/-- What a vector's "after" column lists. -/
structure After where
  regs : List (RegIdx × Word) := []
  flags : Flags
  pc : Word
  sp : Word
  mem : List (Word × Byte) := []
  calls : List PortCall := []

/-- The step completes with what is listed, and counts one cycle. -/
def lands (r : Result) (e : After) : Bool :=
  match r with
  | .next t =>
    e.regs.all (fun x => t.reg x.1 == x.2) && decide (t.flags = e.flags) && t.pc == e.pc && t.sp == e.sp &&
      e.mem.all (fun x => t.read8 x.1 == x.2) && decide (t.portLog = e.calls) && t.cycles == 1
  | .fault _ => false
  | .refused _ => false

/-- The step ends with the fault. -/
def faults (r : Result) (f : Fault) : Bool :=
  match r with
  | .next _ => false
  | .fault g => decide (g = f)
  | .refused _ => false

/-- The step of `exec` completes. -/
def completes (r : Result) : Bool :=
  match r with
  | .next _ => true
  | .fault _ => false
  | .refused _ => false

/-! ## Well-formedness -/

theorem test_jcc_with_reserved_condition_is_ill_formed : (Instr.jcc .reserved 0x0200).wellFormed = false := by decide

theorem test_callcc_with_reserved_condition_is_ill_formed :
    (Instr.callcc .reserved 0x0200).wellFormed = false := by decide

theorem test_named_conditions_are_well_formed :
    (Instr.jcc .le 0x0200).wellFormed = true ∧ (Instr.callcc .z 0x0200).wellFormed = true ∧
      (Instr.divi 1 0).wellFormed = true := by decide

/-! ## Decoding and encoding -/

/-- Words written out from the "bytes" columns of 30_encoding.md R78 and 95_test_vectors.md (47_peripheral.md). -/
theorem test_decode_peripheral :
    decodeTableWord 32 0x00000000 = some .nop ∧
    decodeTableWord 32 0x01000000 = some .cls ∧
    decodeTableWord 32 0x02000000 = some .vblnk ∧
    decodeTableWord 32 0x0300F500 = some (.bgc 5) ∧
    decodeTableWord 32 0x04000208 = some (.spr 0x02 0x08) ∧
    decodeTableWord 32 0x05210030 = some (.drw 1 2 0x3000) ∧
    decodeTableWord 32 0x06210300 = some (.drwR 3 1 2) ∧
    decodeTableWord 32 0x07021001 = some (.rnd 2 0x0110) ∧
    decodeTableWord 32 0x08000002 = some (.flip true false) := by decide

/-- Words written out from the "bytes" columns of 30_encoding.md R78 and 95_test_vectors.md (47_peripheral.md). -/
theorem test_decode_sound_and_palette :
    decodeTableWord 32 0x09000000 = some .snd0 ∧
    decodeTableWord 32 0x0A00E803 = some (.snd1 0x03E8) ∧
    decodeTableWord 32 0x0B006400 = some (.snd2 0x0064) ∧
    decodeTableWord 32 0x0C006400 = some (.snd3 0x0064) ∧
    decodeTableWord 32 0x0D01F401 = some (.snp 1 0x01F4) ∧
    decodeTableWord 32 0x0E123456 = some (.sng 0x12 0x5634) ∧
    decodeTableWord 32 0xD0000040 = some (.pal 0x4000) ∧
    decodeTableWord 32 0xD1010000 = some (.palR 1) ∧
    decodeTableWord 32 0x080000FD = some (.flip false true) := by decide

/-- Words written out from the "bytes" columns of 30_encoding.md R78 and 95_test_vectors.md (42_control_flow.md). -/
theorem test_decode_control_flow :
    decodeTableWord 32 0x10000001 = some (.jmp 0x0100) ∧
    decodeTableWord 32 0x120B0002 = some (.jcc .g 0x0200) ∧
    decodeTableWord 32 0x13214000 = some (.jme 1 2 0x0040) ∧
    decodeTableWord 32 0x1400BB10 = some (.call 0x10BB) ∧
    decodeTableWord 32 0x15000000 = some .ret ∧
    decodeTableWord 32 0x16030000 = some (.jmpR 3) ∧
    decodeTableWord 32 0x17080003 = some (.callcc .ae 0x0300) ∧
    decodeTableWord 32 0x18020000 = some (.callR 2) := by decide

/-- Words written out from the "bytes" columns of 30_encoding.md R78 and 95_test_vectors.md (41_data_movement.md). -/
theorem test_decode_data_movement :
    decodeTableWord 32 0x20033412 = some (.ldi 3 0x1234) ∧
    decodeTableWord 32 0x210000F0 = some (.ldiSp 0xF000) ∧
    decodeTableWord 32 0x22050120 = some (.ldm 5 0x2001) ∧
    decodeTableWord 32 0x23210000 = some (.ldmRr 1 2) ∧
    decodeTableWord 32 0x30040030 = some (.stm 4 0x3000) ∧
    decodeTableWord 32 0x31210000 = some (.stmRr 1 2) := by decide

/-- Words written out from the "bytes" columns of 30_encoding.md R78 and 95_test_vectors.md (43_arithmetic.md). -/
theorem test_decode_add_sub_cmp :
    decodeTableWord 32 0x40010300 = some (.addi 1 0x0003) ∧
    decodeTableWord 32 0x41210000 = some (.add 1 2) ∧
    decodeTableWord 32 0x42210300 = some (.add3 3 1 2) ∧
    decodeTableWord 32 0x50010100 = some (.subi 1 0x0001) ∧
    decodeTableWord 32 0x51210000 = some (.sub 1 2) ∧
    decodeTableWord 32 0x52210400 = some (.sub3 4 1 2) ∧
    decodeTableWord 32 0x53010080 = some (.cmpi 1 0x8000) ∧
    decodeTableWord 32 0x54210000 = some (.cmp 1 2) := by decide

/-- Words written out from the "bytes" columns of 30_encoding.md R78 and 95_test_vectors.md (43_arithmetic.md). -/
theorem test_decode_mul_div_mod :
    decodeTableWord 32 0x90010001 = some (.muli 1 0x0100) ∧
    decodeTableWord 32 0x91210000 = some (.mul 1 2) ∧
    decodeTableWord 32 0x92210300 = some (.mul3 3 1 2) ∧
    decodeTableWord 32 0xA0010200 = some (.divi 1 0x0002) ∧
    decodeTableWord 32 0xA1210000 = some (.div 1 2) ∧
    decodeTableWord 32 0xA2210500 = some (.div3 5 1 2) ∧
    decodeTableWord 32 0xA3010200 = some (.modi 1 0x0002) ∧
    decodeTableWord 32 0xA4210000 = some (.mod 1 2) ∧
    decodeTableWord 32 0xA5210600 = some (.mod3 6 1 2) := by decide

/-- Words written out from the "bytes" columns of 30_encoding.md R78 and 95_test_vectors.md (44_logic.md). -/
theorem test_decode_logic :
    decodeTableWord 32 0x6001FF00 = some (.andi 1 0x00FF) ∧
    decodeTableWord 32 0x61210000 = some (.and 1 2) ∧
    decodeTableWord 32 0x62210300 = some (.and3 3 1 2) ∧
    decodeTableWord 32 0x63010400 = some (.tsti 1 0x0004) ∧
    decodeTableWord 32 0x64210000 = some (.tst 1 2) ∧
    decodeTableWord 32 0x70010F00 = some (.ori 1 0x000F) ∧
    decodeTableWord 32 0x71210000 = some (.or 1 2) ∧
    decodeTableWord 32 0x72210300 = some (.or3 3 1 2) ∧
    decodeTableWord 32 0x8001FFFF = some (.xori 1 0xFFFF) ∧
    decodeTableWord 32 0x81210000 = some (.xor 1 2) ∧
    decodeTableWord 32 0x82210300 = some (.xor3 3 1 2) := by decide

/-- Words written out from the "bytes" columns of 30_encoding.md R78 and 95_test_vectors.md (45_shift_unary.md). -/
theorem test_decode_shift_unary :
    decodeTableWord 32 0xB0010F00 = some (.shl 1 15) ∧
    decodeTableWord 32 0xB1010400 = some (.shr 1 4) ∧
    decodeTableWord 32 0xE0010F00 = some (.noti 1 0x000F) ∧
    decodeTableWord 32 0xE1010000 = some (.notR 1) ∧
    decodeTableWord 32 0xE2210000 = some (.notRr 1 2) ∧
    decodeTableWord 32 0xE3010080 = some (.negi 1 0x8000) ∧
    decodeTableWord 32 0xE4010000 = some (.negR 1) ∧
    decodeTableWord 32 0xE5210000 = some (.negRr 1 2) := by decide

/-- Words written out from the "bytes" columns of 30_encoding.md R78 and 95_test_vectors.md (46_stack.md). -/
theorem test_decode_stack :
    decodeTableWord 32 0xC0010000 = some (.push 1) ∧
    decodeTableWord 32 0xC1020000 = some (.pop 2) ∧
    decodeTableWord 32 0xC2000000 = some .pushall ∧
    decodeTableWord 32 0xC3000000 = some .popall ∧
    decodeTableWord 32 0xC4000000 = some .pushf ∧
    decodeTableWord 32 0xC5000000 = some .popf := by decide

/-- The condition codes of 40_conditions.md R101, 0 to 15, in the low nibble of YX. -/
theorem test_decode_conditions :
    (List.range 16).map (fun c => decodeTableWord 32 (0x12000002 + c * 0x10000)) =
      ([.z, .nz, .n, .nn, .p, .o, .no, .a, .ae, .b, .be, .g, .ge, .l, .le, .reserved] : List Cond).map
        fun c => some (.jcc c 0x0200) := by decide

/-- Vectors E.1, E.2 and E.4: the bits a format does not read are ignored. -/
theorem test_decode_ignores_unread_bits :
    decodeTableWord 32 0x40F10300 = some (.addi 1 0x0003) ∧ decodeTableWord 32 0x4221F3AB = some (.add3 3 1 2) ∧
      decodeTableWord 32 0x00123456 = some .nop := by decide

/-- Bytes of 30_encoding.md R80: no handler. -/
theorem test_decode_invalid :
    decodeTableWord 32 0x0F000000 = none ∧ decodeTableWord 32 0x11000001 = none ∧
      decodeTableWord 32 0x24210000 = none ∧ decodeTableWord 32 0xB2010100 = none ∧
      decodeTableWord 32 0xE6000000 = none := by decide

theorem test_decode_of_three_bytes_is_truncated : decode [0x40, 0x01, 0x03] = .error .truncated := by decide

/-- The "bytes" column of R78 for one instruction of each operand shape, from the encoder's side. -/
theorem test_encode :
    encode (.add3 3 1 2) = [0x42, 0x21, 0x03, 0x00] ∧ encode (.jcc .g 0x0200) = [0x12, 0x0B, 0x00, 0x02] ∧
      encode (.flip true false) = [0x08, 0x00, 0x00, 0x02] ∧ encode (.sng 0x12 0x5634) = [0x0E, 0x12, 0x34, 0x56] ∧
      encode (.shr 13 15) = [0xB1, 0x0D, 0x0F, 0x00] := by decide

/-- Texts of the vectors of 95_test_vectors.md, one for each operand form. -/
theorem test_assembly :
    (assembly (.addi 1 3)).map Assembly.text = some "ADDI R1,0x0003" ∧
      (assembly (.drwR 3 1 2)).map Assembly.text = some "DRW R3,R1,R2" ∧
      (assembly (.drw 1 2 0x3000)).map Assembly.text = some "DRW 0x3000,R1,R2" ∧
      (assembly (.sng 0x12 0x5634)).map Assembly.text = some "SNG 0x12,0x34,0x56" ∧
      (assembly (.flip true false)).map Assembly.text = some "FLIP 1,0" ∧
      (assembly (.spr 2 8)).map Assembly.text = some "SPR 0x0802" ∧
      (assembly (.jcc .g 0x0200)).map Assembly.text = some "JG 0x0200" ∧
      (assembly (.callcc .ae 0x0300)).map Assembly.text = some "CALLAE 0x0300" ∧
      (assembly (.ldiSp 0xF000)).map Assembly.text = some "LDI SP,0xF000" ∧
      (assembly (.shl 1 15)).map Assembly.text = some "SHL R1,15" ∧
      (assembly (.jcc .reserved 0x0200)).map Assembly.text = none := by decide

/-! ## One step: vectors of 95_test_vectors.md -/

/-- Vector P.1: `NOP`. -/
theorem test_nop_keeps_flags :
    lands (runs 0x00000000 (start (flags := czon 1 1 1 1)))
      { flags := czon 1 1 1 1, pc := 0x0004, sp := 0xFDF0 } = true := by decide

/-- Vector P.2: `CLS`. -/
theorem test_cls_two_calls :
    lands (runs 0x01000000 start)
      { flags := czon 0 0 0 0, pc := 0x0004, sp := 0xFDF0, calls := [.gpuClearFg, .gpuClearBg] } = true := by decide

/-- Vector P.22: `CLS`. -/
theorem test_cls_second_call_fails :
    faults (runs 0x01000000 (start (outcomes := [none, some 7])))
      (.peripheralFailure 0x0000 7 [.gpuClearFg]) = true := by decide

/-- Vector P.3: `VBLNK`. -/
theorem test_vblnk_retries :
    lands (runs 0x02000000 (start (pc := 0x0040) (vblank := [false])))
      { flags := czon 0 0 0 0, pc := 0x0040, sp := 0xFDF0, calls := [.gpuVblank] } = true := by decide

/-- Vector P.4: `VBLNK`. -/
theorem test_vblnk_passes :
    lands (runs 0x02000000 (start (pc := 0x0040) (vblank := [true])))
      { flags := czon 0 0 0 0, pc := 0x0044, sp := 0xFDF0, calls := [.gpuVblank] } = true := by decide

/-- Vector P.6: `BGC 5`. -/
theorem test_bgc_ignores_high_nibble :
    lands (runs 0x0300F500 start)
      { flags := czon 0 0 0 0, pc := 0x0004, sp := 0xFDF0, calls := [.gpuBg 5] } = true := by decide

/-- Vector P.7: `SPR 0x0802`. -/
theorem test_spr_width_is_low_byte :
    lands (runs 0x04000208 start)
      { flags := czon 0 0 0 0, pc := 0x0004, sp := 0xFDF0, calls := [.gpuSpriteW 2, .gpuSpriteH 8] } = true := by decide

/-- Vector P.8: `DRW 0x3000,R1,R2`. -/
theorem test_drw_writes_carry_only :
    lands (runs 0x05210030 (start (regs := [(1, 0x000A), (2, 0x0014)]) (flags := czon 0 1 0 1) (overlap := [true])))
      { regs := [(1, 0x000A), (2, 0x0014)], flags := czon 1 1 0 1, pc := 0x0004, sp := 0xFDF0,
        calls := [.gpuDraw 0x3000 0x000A 0x0014] } = true := by decide

/-- Vector P.24: `DRW 0x3000,R1,R2`. -/
theorem test_drw_failing_call_keeps_carry :
    faults (runs 0x05210030 (start (flags := czon 1 0 0 0) (outcomes := [some 7])))
      (.peripheralFailure 0x0000 7 []) = true := by decide

/-- Vector P.10: `DRW R3,R1,R2`. -/
theorem test_drwR_reads_address_from_memory :
    lands (runs 0x06210300 (start (regs := [(1, 0x000A), (2, 0x0014), (3, 0x2000)])
        (mem := [(0x2000, 0x00), (0x2001, 0x30)]) (overlap := [true])))
      { regs := [(1, 0x000A), (2, 0x0014), (3, 0x2000)], flags := czon 1 0 0 0, pc := 0x0004, sp := 0xFDF0,
        calls := [.gpuDraw 0x3000 0x000A 0x0014] } = true := by decide

/-- Vector P.11: `RND R2,0x0110`. -/
theorem test_rnd_upper_bound :
    lands (runs 0x07021001 (start (random := [0x0110])))
      { regs := [(2, 0x0110)], flags := czon 0 0 0 0, pc := 0x0004, sp := 0xFDF0, calls := [.rngNextInRange 0x0110] } = true := by decide

/-- Vector P.23: `RND R2,0x0110`. -/
theorem test_rnd_failing_call :
    faults (runs 0x07021001 (start (regs := [(2, 0x7777)]) (outcomes := [some 7])))
      (.peripheralFailure 0x0000 7 []) = true := by decide

/-- Vector P.13: `FLIP 1,0`. -/
theorem test_flip_h_is_bit_one :
    lands (runs 0x08000002 start)
      { flags := czon 0 0 0 0, pc := 0x0004, sp := 0xFDF0, calls := [.gpuHflip true, .gpuVflip false] } = true := by decide

/-- Vector P.15: `SND0`. -/
theorem test_snd0 :
    lands (runs 0x09000000 start)
      { flags := czon 0 0 0 0, pc := 0x0004, sp := 0xFDF0, calls := [.spuStop] } = true := by decide

/-- Vector P.16: `SND1 0x03E8`. -/
theorem test_snd1 :
    lands (runs 0x0A00E803 start)
      { flags := czon 0 0 0 0, pc := 0x0004, sp := 0xFDF0, calls := [.spuPlayFixed 500 0x03E8] } = true := by decide

/-- Vector P.17: `SND2 0x0064`. -/
theorem test_snd2 :
    lands (runs 0x0B006400 start)
      { flags := czon 0 0 0 0, pc := 0x0004, sp := 0xFDF0, calls := [.spuPlayFixed 1000 0x0064] } = true := by decide

/-- Vector P.18: `SND3 0x0064`. -/
theorem test_snd3 :
    lands (runs 0x0C006400 start)
      { flags := czon 0 0 0 0, pc := 0x0004, sp := 0xFDF0, calls := [.spuPlayFixed 1500 0x0064] } = true := by decide

/-- Vector P.19: `SNP R1,0x01F4`. -/
theorem test_snp_frequency_from_memory :
    lands (runs 0x0D01F401 (start (regs := [(1, 0x2000)]) (mem := [(0x2000, 0xB8), (0x2001, 0x01)])))
      { regs := [(1, 0x2000)], flags := czon 0 0 0 0, pc := 0x0004, sp := 0xFDF0,
        calls := [.spuPlayTone 0x01B8 0x01F4] } = true := by decide

/-- Vector P.20: `SNG 0x12,0x34,0x56`. -/
theorem test_sng_split :
    lands (runs 0x0E123456 start)
      { flags := czon 0 0 0 0, pc := 0x0004, sp := 0xFDF0, calls := [.spuSetup 0x12 0x5634] } = true := by decide

/-- Vector F.2: `JMP 0x0008`. -/
theorem test_jmp_to_self :
    lands (runs 0x10000800 (start (pc := 0x0008)))
      { flags := czon 0 0 0 0, pc := 0x0008, sp := 0xFDF0 } = true := by decide

/-- Vector K.4: `JG 0x0200`. -/
theorem test_jcc_g_signed :
    lands (runs 0x120B0002 (start (flags := czon 0 0 1 1) (pc := 0x0010)))
      { flags := czon 0 0 1 1, pc := 0x0200, sp := 0xFDF0 } = true := by decide

/-- Vector K.6: `J<15> 0x0200`. -/
theorem test_jcc_reserved_faults :
    faults (runs 0x120F0002 (start (flags := czon 1 1 0 0) (pc := 0x0010)))
      (.reservedCondition 0x0010) = true := by decide

/-- Vector F.4: `JME R1,R2,0x0040`. -/
theorem test_jme_equal :
    lands (runs 0x13214000 (start (regs := [(1, 0x0007), (2, 0x0007)])))
      { regs := [(1, 0x0007), (2, 0x0007)], flags := czon 0 0 0 0, pc := 0x0040, sp := 0xFDF0 } = true := by decide

/-- Vector F.6: `JME R1,R2,0x0040`. -/
theorem test_jme_compares_all_bits :
    lands (runs 0x13214000 (start (regs := [(1, 0x0007), (2, 0x8007)])))
      { regs := [(1, 0x0007), (2, 0x8007)], flags := czon 0 0 0 0, pc := 0x0004, sp := 0xFDF0 } = true := by decide

/-- Vector F.8: `CALL 0x0300`. -/
theorem test_call_return_address_wraps :
    lands (runs 0x14000003 (start (pc := 0xFFFC)))
      { flags := czon 0 0 0 0, pc := 0x0300, sp := 0xFDF2 } = true := by decide

/-- Vector F.9: `CALL 0x0300`. -/
theorem test_call_stack_wraps :
    lands (runs 0x14000003 (start (pc := 0x0100) (sp := 0xFFFF)))
      { flags := czon 0 0 0 0, pc := 0x0300, sp := 0x0001, mem := [(0x0000, 0x01), (0xFFFF, 0x04)] } = true := by decide

/-- Vector F.11: `RET`. -/
theorem test_ret_stack_wraps :
    lands (runs 0x15000000 (start (pc := 0x0300) (sp := 0x0001) (mem := [(0xFFFF, 0x78)])))
      { flags := czon 0 0 0 0, pc := 0x0078, sp := 0xFFFF } = true := by decide

/-- Vector F.14: `JMP R3`. -/
theorem test_jmpR_any_value :
    lands (runs 0x16030000 (start (regs := [(3, 0xFFFF)])))
      { regs := [(3, 0xFFFF)], flags := czon 0 0 0 0, pc := 0xFFFF, sp := 0xFDF0 } = true := by decide

/-- Vector F.15: `CALLZ 0x0300`. -/
theorem test_callcc_taken :
    lands (runs 0x17000003 (start (flags := czon 0 1 0 0) (pc := 0x0020)))
      { flags := czon 0 1 0 0, pc := 0x0300, sp := 0xFDF2, mem := [(0xFDF0, 0x24)] } = true := by decide

/-- Vector K.7: `CALL<15> 0x0200`. -/
theorem test_callcc_reserved_pushes_nothing :
    faults (runs 0x170F0002 (start (pc := 0x0010)))
      (.reservedCondition 0x0010) = true := by decide

/-- Vector F.18: `CALL R2`. -/
theorem test_callR :
    lands (runs 0x18020000 (start (regs := [(2, 0x0400)]) (pc := 0x0010)))
      { regs := [(2, 0x0400)], flags := czon 0 0 0 0, pc := 0x0400, sp := 0xFDF2, mem := [(0xFDF0, 0x14)] } = true := by decide

/-- Vector D.1: `LDI R3,0x1234`. -/
theorem test_ldi_keeps_flags :
    lands (runs 0x20033412 (start (flags := czon 1 1 1 1)))
      { regs := [(3, 0x1234)], flags := czon 1 1 1 1, pc := 0x0004, sp := 0xFDF0 } = true := by decide

/-- Vector D.4: `LDI SP,0x0001`. -/
theorem test_ldiSp_odd :
    lands (runs 0x21000100 start)
      { flags := czon 0 0 0 0, pc := 0x0004, sp := 0x0001 } = true := by decide

/-- Vector D.6: `LDM R5,0xFFFF`. -/
theorem test_ldm_wraps :
    lands (runs 0x2205FFFF (start (mem := [(0xFFFF, 0x34)])))
      { regs := [(5, 0x2234)], flags := czon 0 0 0 0, pc := 0x0004, sp := 0xFDF0 } = true := by decide

/-- Vector D.9: `LDM R2,R2`. -/
theorem test_ldmRr_reads_address_first :
    lands (runs 0x23220000 (start (regs := [(2, 0x2000)]) (mem := [(0x2000, 0xCD), (0x2001, 0xAB)])))
      { regs := [(2, 0xABCD)], flags := czon 0 0 0 0, pc := 0x0004, sp := 0xFDF0 } = true := by decide

/-- Vector D.11: `STM R4,0xFFFF`. -/
theorem test_stm_over_itself :
    lands (runs 0x3004FFFF (start (regs := [(4, 0xBEEF)])))
      { regs := [(4, 0xBEEF)], flags := czon 0 0 0 0, pc := 0x0004, sp := 0xFDF0,
        mem := [(0x0000, 0xBE), (0xFFFF, 0xEF)] } = true := by decide

/-- Vector D.13: `STM R2,R2`. -/
theorem test_stmRr_same_register :
    lands (runs 0x31220000 (start (regs := [(2, 0x4000)])))
      { regs := [(2, 0x4000)], flags := czon 0 0 0 0, pc := 0x0004, sp := 0xFDF0, mem := [(0x4001, 0x40)] } = true := by decide

/-- Vector A.2: `ADDI R1,0x0001`. -/
theorem test_addi_signed_overflow :
    lands (runs 0x40010100 (start (regs := [(1, 0x7FFF)])))
      { regs := [(1, 0x8000)], flags := czon 0 0 1 1, pc := 0x0004, sp := 0xFDF0 } = true := by decide

/-- Vector E.10: `ADDI R1,0x1234`. -/
theorem test_addi_fetch_wraps :
    lands (runs 0x40013412 (start (regs := [(1, 0x0001)]) (pc := 0xFFFE)))
      { regs := [(1, 0x1235)], flags := czon 0 0 0 0, pc := 0x0002, sp := 0xFDF0 } = true := by decide

/-- Vector A.4: `ADD R1,R2`. -/
theorem test_add_all_flags :
    lands (runs 0x41210000 (start (regs := [(1, 0x8000), (2, 0x8000)])))
      { regs := [(1, 0x0000)], flags := czon 1 1 1 0, pc := 0x0004, sp := 0xFDF0 } = true := by decide

/-- Vector A.8: `ADD R2,R1,R2`. -/
theorem test_add3_target_is_source :
    lands (runs 0x42210200 (start (regs := [(1, 0xFFFF), (2, 0xFFFF)])))
      { regs := [(2, 0xFFFE)], flags := czon 1 0 0 1, pc := 0x0004, sp := 0xFDF0 } = true := by decide

/-- Vector A.10: `SUBI R1,0x0001`. -/
theorem test_subi_signed_overflow :
    lands (runs 0x50010100 (start (regs := [(1, 0x8000)])))
      { regs := [(1, 0x7FFF)], flags := czon 1 0 1 0, pc := 0x0004, sp := 0xFDF0 } = true := by decide

/-- Vector A.11: `SUBI R1,0x0000`. -/
theorem test_subi_no_borrow_sets_carry :
    lands (runs 0x50010000 (start (regs := [(1, 0x0000)])))
      { regs := [(1, 0x0000)], flags := czon 1 1 0 0, pc := 0x0004, sp := 0xFDF0 } = true := by decide

/-- Vector A.12: `SUB R1,R2`. -/
theorem test_sub_signed_overflow :
    lands (runs 0x51210000 (start (regs := [(1, 0x7FFF), (2, 0xFFFF)])))
      { regs := [(1, 0x8000)], flags := czon 0 0 1 1, pc := 0x0004, sp := 0xFDF0 } = true := by decide

/-- Vector A.14: `SUB R4,R1,R2`. -/
theorem test_sub3 :
    lands (runs 0x52210400 (start (regs := [(1, 0x0003), (2, 0x0005)])))
      { regs := [(4, 0xFFFE)], flags := czon 0 0 0 1, pc := 0x0004, sp := 0xFDF0 } = true := by decide

/-- Vector A.16: `CMPI R1,0x8000`. -/
theorem test_cmpi_signed_and_unsigned_differ :
    lands (runs 0x53010080 (start (regs := [(1, 0x7FFF)])))
      { regs := [(1, 0x7FFF)], flags := czon 0 0 1 1, pc := 0x0004, sp := 0xFDF0 } = true := by decide

/-- Vector A.17: `CMP R1,R2`. -/
theorem test_cmp_signed_and_unsigned_differ :
    lands (runs 0x54210000 (start (regs := [(1, 0x8000), (2, 0x0001)])))
      { regs := [(1, 0x8000), (2, 0x0001)], flags := czon 1 0 1 0, pc := 0x0004, sp := 0xFDF0 } = true := by decide

/-- Vector L.1: `ANDI R1,0x00FF`. -/
theorem test_andi_keeps_carry_overflow :
    lands (runs 0x6001FF00 (start (regs := [(1, 0xF0F0)]) (flags := czon 1 0 1 0)))
      { regs := [(1, 0x00F0)], flags := czon 1 0 1 0, pc := 0x0004, sp := 0xFDF0 } = true := by decide

/-- Vector L.3: `AND R1,R2`. -/
theorem test_and :
    lands (runs 0x61210000 (start (regs := [(1, 0x8001), (2, 0x8000)])))
      { regs := [(1, 0x8000)], flags := czon 0 0 0 1, pc := 0x0004, sp := 0xFDF0 } = true := by decide

/-- Vector L.4: `AND R3,R1,R2`. -/
theorem test_and3 :
    lands (runs 0x62210300 (start (regs := [(1, 0x00FF), (2, 0x0F0F)]) (flags := czon 1 0 0 0)))
      { regs := [(3, 0x000F)], flags := czon 1 0 0 0, pc := 0x0004, sp := 0xFDF0 } = true := by decide

/-- Vector L.5: `TSTI R1,0x0004`. -/
theorem test_tsti :
    lands (runs 0x63010400 (start (regs := [(1, 0x0004)]) (flags := czon 0 0 1 0)))
      { regs := [(1, 0x0004)], flags := czon 0 0 1 0, pc := 0x0004, sp := 0xFDF0 } = true := by decide

/-- Vector L.7: `TST R1,R1`. -/
theorem test_tst :
    lands (runs 0x64110000 (start (regs := [(1, 0x8000)]) (flags := czon 1 0 0 0)))
      { regs := [(1, 0x8000)], flags := czon 1 0 0 1, pc := 0x0004, sp := 0xFDF0 } = true := by decide

/-- Vector L.10: `ORI R1,0x0000`. -/
theorem test_ori_zero :
    lands (runs 0x70010000 (start (regs := [(1, 0x0000)]) (flags := czon 1 0 1 0)))
      { regs := [(1, 0x0000)], flags := czon 1 1 1 0, pc := 0x0004, sp := 0xFDF0 } = true := by decide

/-- Vector L.11: `OR R1,R2`. -/
theorem test_or_move :
    lands (runs 0x71210000 (start (regs := [(2, 0x8000)])))
      { regs := [(1, 0x8000)], flags := czon 0 0 0 1, pc := 0x0004, sp := 0xFDF0 } = true := by decide

/-- Vector L.12: `OR R3,R1,R2`. -/
theorem test_or3 :
    lands (runs 0x72210300 (start (regs := [(3, 0x1111)])))
      { regs := [(3, 0x0000)], flags := czon 0 1 0 0, pc := 0x0004, sp := 0xFDF0 } = true := by decide

/-- Vector L.13: `XORI R1,0xFFFF`. -/
theorem test_xori :
    lands (runs 0x8001FFFF (start (regs := [(1, 0x00FF)])))
      { regs := [(1, 0xFF00)], flags := czon 0 0 0 1, pc := 0x0004, sp := 0xFDF0 } = true := by decide

/-- Vector L.14: `XOR R1,R1`. -/
theorem test_xor_self :
    lands (runs 0x81110000 (start (regs := [(1, 0x1234)]) (flags := czon 1 0 1 1)))
      { regs := [(1, 0x0000)], flags := czon 1 1 1 0, pc := 0x0004, sp := 0xFDF0 } = true := by decide

/-- Vector L.15: `XOR R3,R1,R2`. -/
theorem test_xor3 :
    lands (runs 0x82210300 (start (regs := [(1, 0xAAAA), (2, 0x5555)])))
      { regs := [(3, 0xFFFF)], flags := czon 0 0 0 1, pc := 0x0004, sp := 0xFDF0 } = true := by decide

/-- Vector A.19: `MULI R1,0x0004`. -/
theorem test_muli_keeps_overflow :
    lands (runs 0x90010400 (start (regs := [(1, 0x0003)]) (flags := czon 0 0 1 0)))
      { regs := [(1, 0x000C)], flags := czon 0 0 1 0, pc := 0x0004, sp := 0xFDF0 } = true := by decide

/-- Vector A.20: `MULI R1,0x0100`. -/
theorem test_muli_zero_with_carry :
    lands (runs 0x90010001 (start (regs := [(1, 0x0100)])))
      { regs := [(1, 0x0000)], flags := czon 1 1 0 0, pc := 0x0004, sp := 0xFDF0 } = true := by decide

/-- Vector A.22: `MUL R1,R2`. -/
theorem test_mul_negative_is_bit_31 :
    lands (runs 0x91210000 (start (regs := [(1, 0xFFFF), (2, 0xFFFF)])))
      { regs := [(1, 0x0001)], flags := czon 1 0 0 1, pc := 0x0004, sp := 0xFDF0 } = true := by decide

/-- Vector A.25: `MUL R3,R1,R2`. -/
theorem test_mul3_negative_is_not_bit_15 :
    lands (runs 0x92210300 (start (regs := [(1, 0xFFFF), (2, 0x8000)])))
      { regs := [(3, 0x8000)], flags := czon 1 0 0 0, pc := 0x0004, sp := 0xFDF0 } = true := by decide

/-- Vector A.26: `DIVI R1,0x0002`. -/
theorem test_divi_inexact :
    lands (runs 0xA0010200 (start (regs := [(1, 0x0007)]) (flags := czon 0 0 1 0)))
      { regs := [(1, 0x0003)], flags := czon 1 0 1 0, pc := 0x0004, sp := 0xFDF0 } = true := by decide

/-- Vector A.29: `DIVI R1,0x0000`. -/
theorem test_divi_by_zero :
    faults (runs 0xA0010000 (start (regs := [(1, 0x0007)]) (flags := czon 1 1 0 1)))
      (.divisionByZero 0x0000) = true := by decide

/-- Vector A.30: `DIV R1,R2`. -/
theorem test_div_is_unsigned :
    lands (runs 0xA1210000 (start (regs := [(1, 0xFFFE), (2, 0x0002)])))
      { regs := [(1, 0x7FFF)], flags := czon 0 0 0 0, pc := 0x0004, sp := 0xFDF0 } = true := by decide

/-- Vector A.32: `DIV R1,R1`. -/
theorem test_div_zero_by_zero :
    faults (runs 0xA1110000 (start (regs := [(1, 0x0000)])))
      (.divisionByZero 0x0000) = true := by decide

/-- Vector A.33: `DIV R5,R1,R2`. -/
theorem test_div3 :
    lands (runs 0xA2210500 (start (regs := [(1, 0x0064), (2, 0x000A)])))
      { regs := [(5, 0x000A)], flags := czon 0 0 0 0, pc := 0x0004, sp := 0xFDF0 } = true := by decide

/-- Vector A.34: `DIV R5,R1,R2`. -/
theorem test_div3_by_zero :
    faults (runs 0xA2210500 (start (regs := [(1, 0x0064), (2, 0x0000), (5, 0x5555)])))
      (.divisionByZero 0x0000) = true := by decide

/-- Vector A.35: `MODI R1,0x0002`. -/
theorem test_modi :
    lands (runs 0xA3010200 (start (regs := [(1, 0x0007)])))
      { regs := [(1, 0x0001)], flags := czon 1 0 0 0, pc := 0x0004, sp := 0xFDF0 } = true := by decide

/-- Vector A.36: `MODI R1,0x0000`. -/
theorem test_modi_by_zero :
    faults (runs 0xA3010000 (start (regs := [(1, 0x0007)])))
      (.divisionByZero 0x0000) = true := by decide

/-- Vector A.37: `MOD R1,R2`. -/
theorem test_mod_negative_is_bit_15 :
    lands (runs 0xA4210000 (start (regs := [(1, 0x9000), (2, 0xA000)])))
      { regs := [(1, 0x9000), (2, 0xA000)], flags := czon 1 0 0 1, pc := 0x0004, sp := 0xFDF0 } = true := by decide

/-- Vector A.40: `MOD R6,R1,R2`. -/
theorem test_mod3 :
    lands (runs 0xA5210600 (start (regs := [(1, 0xFFFF), (2, 0x0010)])))
      { regs := [(6, 0x000F)], flags := czon 1 0 0 0, pc := 0x0004, sp := 0xFDF0 } = true := by decide

/-- Vector H.2: `SHL R1,1`. -/
theorem test_shl_bit_lost :
    lands (runs 0xB0010100 (start (regs := [(1, 0x8000)]) (flags := czon 0 0 0 0)))
      { regs := [(1, 0x0000)], flags := czon 0 1 0 0, pc := 0x0004, sp := 0xFDF0 } = true := by decide

/-- Vector H.3: `SHL R1,0`. -/
theorem test_shl_by_zero :
    lands (runs 0xB0010000 (start (regs := [(1, 0x8001)]) (flags := czon 1 0 1 0)))
      { regs := [(1, 0x8001)], flags := czon 1 0 1 1, pc := 0x0004, sp := 0xFDF0 } = true := by decide

/-- Vector H.9: `SHR R1,15`. -/
theorem test_shr_by_fifteen :
    lands (runs 0xB1010F00 (start (regs := [(1, 0x7FFF)]) (flags := czon 0 0 0 1)))
      { regs := [(1, 0x0000)], flags := czon 0 1 0 0, pc := 0x0004, sp := 0xFDF0 } = true := by decide

/-- Vector H.10: `SHR R1,4`. -/
theorem test_shr_is_logical :
    lands (runs 0xB1010400 (start (regs := [(1, 0xF00F)])))
      { regs := [(1, 0x0F00)], flags := czon 0 0 0 0, pc := 0x0004, sp := 0xFDF0 } = true := by decide

/-- Vector H.11: `NOTI R1,0x000F`. -/
theorem test_noti_ignores_old_value :
    lands (runs 0xE0010F00 (start (regs := [(1, 0x5555)])))
      { regs := [(1, 0xFFF0)], flags := czon 0 0 0 1, pc := 0x0004, sp := 0xFDF0 } = true := by decide

/-- Vector H.13: `NOT R1`. -/
theorem test_notR :
    lands (runs 0xE1010000 (start (regs := [(1, 0xFFFF)]) (flags := czon 1 0 1 0)))
      { regs := [(1, 0x0000)], flags := czon 1 1 1 0, pc := 0x0004, sp := 0xFDF0 } = true := by decide

/-- Vector H.14: `NOT R1,R2`. -/
theorem test_notRr :
    lands (runs 0xE2210000 (start (regs := [(2, 0x00FF)])))
      { regs := [(1, 0xFF00)], flags := czon 0 0 0 1, pc := 0x0004, sp := 0xFDF0 } = true := by decide

/-- Vector H.16: `NEGI R1,0x8000`. -/
theorem test_negi_most_negative :
    lands (runs 0xE3010080 start)
      { regs := [(1, 0x8000)], flags := czon 0 0 0 1, pc := 0x0004, sp := 0xFDF0 } = true := by decide

/-- Vector H.18: `NEG R1`. -/
theorem test_negR :
    lands (runs 0xE4010000 (start (regs := [(1, 0x0005)])))
      { regs := [(1, 0xFFFB)], flags := czon 0 0 0 1, pc := 0x0004, sp := 0xFDF0 } = true := by decide

/-- Vector H.20: `NEG R2,R2`. -/
theorem test_negRr_same_register :
    lands (runs 0xE5220000 (start (regs := [(2, 0x0001)])))
      { regs := [(2, 0xFFFF)], flags := czon 0 0 0 1, pc := 0x0004, sp := 0xFDF0 } = true := by decide

/-- Vector T.2: `PUSH R1`. -/
theorem test_push_straddles_the_wrap :
    lands (runs 0xC0010000 (start (regs := [(1, 0x1234)]) (pc := 0x0100) (sp := 0xFFFF)))
      { regs := [(1, 0x1234)], flags := czon 0 0 0 0, pc := 0x0104, sp := 0x0001,
        mem := [(0x0000, 0x12), (0xFFFF, 0x34)] } = true := by decide

/-- Vector T.5: `POP R2`. -/
theorem test_pop_wraps :
    lands (runs 0xC1020000 (start (pc := 0x0100) (sp := 0x0000) (mem := [(0xFFFE, 0xEF), (0xFFFF, 0xBE)])))
      { regs := [(2, 0xBEEF)], flags := czon 0 0 0 0, pc := 0x0104, sp := 0xFFFE } = true := by decide

/-- Vector T.9: `PUSHF`. -/
theorem test_pushf_high_byte :
    lands (runs 0xC4000000 (start (flags := czon 1 0 0 1) (mem := [(0xFDF0, 0xFF), (0xFDF1, 0xFF)])))
      { flags := czon 1 0 0 1, pc := 0x0004, sp := 0xFDF2, mem := [(0xFDF0, 0x82), (0xFDF1, 0x00)] } = true := by decide

/-- Vector T.11: `POPF`. -/
theorem test_popf_ignored_bits :
    lands (runs 0xC5000000 (start (flags := czon 1 1 1 1) (sp := 0xFDF2) (mem := [(0xFDF0, 0x3C), (0xFDF1, 0xFF)])))
      { flags := czon 0 0 0 0, pc := 0x0004, sp := 0xFDF0 } = true := by decide

/-- Vector T.12: `POPF`. -/
theorem test_popf_overflow_zero :
    lands (runs 0xC5000000 (start (sp := 0xFDF2) (mem := [(0xFDF0, 0x41), (0xFDF1, 0x00)])))
      { flags := czon 0 1 1 0, pc := 0x0004, sp := 0xFDF0 } = true := by decide

/-- Vector E.6: `(invalid)`. -/
theorem test_invalid_opcode :
    faults (runs 0x24210000 (start (regs := [(2, 0x0009)])))
      (.invalidOpcode 0x0000 0x24) = true := by decide

/-- Vector E.9: `(invalid)`. -/
theorem test_invalid_opcode_ff :
    faults (runs 0xFFFFFFFF (start (pc := 0x0100)))
      (.invalidOpcode 0x0100 0xFF) = true := by decide

/-- Vector T.7: slots 0 to 7 stand below the wrap, slots 8 to 15 from address 0. -/
theorem test_pushall_wraps :
    lands (runs 0xC2000000 (start (regs := [(0, 0x1100), (7, 0x1107), (8, 0x1108), (15, 0x110F)]) (pc := 0x0100)
        (sp := 0xFFF0)))
      { flags := czon 0 0 0 0, pc := 0x0104, sp := 0x0010,
        mem := [(0xFFF0, 0x00), (0xFFF1, 0x11), (0xFFFE, 0x07), (0xFFFF, 0x11), (0x0000, 0x08), (0x0001, 0x11),
          (0x000E, 0x0F), (0x000F, 0x11)] } = true := by decide

/-- Vector T.8, for three of the registers. -/
theorem test_popall_loads_from_the_lowest_slot :
    lands (runs 0xC3000000 (start (sp := 0xFE10) (mem := [(0xFDF1, 0xA0), (0xFDF2, 0x01), (0xFDF3, 0xA0),
        (0xFE0E, 0x0F), (0xFE0F, 0xA0)])))
      { regs := [(0, 0xA000), (1, 0xA001), (15, 0xA00F)], flags := czon 0 0 0 0, pc := 0x0004, sp := 0xFDF0 }
      = true := by decide

/-- The PAL table, entries 0 and 15 (the other bytes of the table are left 0 here). -/
theorem test_palR_reads_from_the_register :
    lands (runs 0xD1010000 (start (regs := [(1, 0x4000)]) (mem := [(0x4001, 0xFF), (0x402D, 0xFF), (0x402F, 0x58)])))
      { flags := czon 0 0 0 0, pc := 0x0004, sp := 0xFDF0,
        calls := .gpuPalette 0 0x00 0xFF 0x00 ::
          (([1, 2, 3, 4, 5, 6, 7, 8, 9, 10, 11, 12, 13, 14] : List (Fin 16)).map fun k => .gpuPalette k 0 0 0) ++
          [.gpuPalette 15 0xFF 0x00 0x58] } = true := by decide

/-- The PAL wrap row: entry 0 is 0xFFFF, 0x0000, 0x0001, the instruction's own bytes. -/
theorem test_pal_wraps :
    (match runs 0xD000FFFF (start (mem := [(0xFFFF, 0xFF)])) with
      | .next t => decide (t.portLog.head? = some (.gpuPalette 0 0xFF 0xD0 0x00)) && t.portLog.length == 16
      | .fault _ => false
      | .refused _ => false) = true := by decide

/-- Vector S.2: a register keeps the low 16 bits. -/
theorem test_register_truncates : (start.setReg 7 (BitVec.ofNat 16 0x12345)).reg 7 = 0x2345 := by decide

/-- Vector S.1, at the wrap. -/
theorem test_little_endian_wraps :
    (start.write16 0xFFFF 0x1234).read8 0xFFFF = 0x34 ∧ (start.write16 0xFFFF 0x1234).read8 0x0000 = 0x12 ∧
      (start.write16 0xFFFF 0x1234).read16 0xFFFF = 0x1234 := by decide

/-- R52: writing the value an unlisted byte has leaves nothing listed. -/
theorem test_memory_stays_canonical :
    ((start.write8 5 7).write8 5 0).mem = [] ∧ ((start.write8 9 1).write8 3 2).mem = [(3, 2), (9, 1)] := by decide

/-- The rows of section 2.2 with Z clear, and O and N all four ways: the signed conditions. -/
theorem test_signed_conditions :
    (evalCond .g (czon 0 0 1 1) = some true ∧ evalCond .g (czon 0 0 1 0) = some false) ∧
      (evalCond .ge (czon 1 1 0 0) = some true ∧ evalCond .l (czon 0 0 0 1) = some true) ∧
      (evalCond .le (czon 1 1 1 1) = some true ∧ evalCond .ae (czon 0 1 0 0) = some true) ∧
      (evalCond .be (czon 1 0 0 0) = some false ∧ evalCond .p (czon 1 1 1 0) = some false) := by decide

/-- R36, R295: after a fault the latch is set, and the core executes nothing more. -/
theorem test_fault_is_terminal :
    let t := (start.withFetchWord 32 0xFF000000).requestStep
    t.fault = some (.invalidOpcode 0 0xFF) ∧ t.status = 1 ∧ t.pc = 0 ∧
      (match step t with
        | .refused e => decide (e = .coreFaulted (.invalidOpcode 0 0xFF))
        | .next _ => false
        | .fault _ => false) = true := by decide

/-! ## Witnesses: concrete states and operands that meet each statement's hypotheses together -/

/-- A state about to run `ADDI R1,0x0003`. -/
def aboutToAdd : State := (start (regs := [(1, 3)])).withFetchWord 32 0x40010300

/-- A state about to run `DIVI R1,0x0000`. -/
def aboutToDivideByZero : State := (start (regs := [(1, 7)])).withFetchWord 32 0xA0010000

/-- A state about to run `CLS` whose second port call fails. -/
def aboutToFailOnCls : State := (start (outcomes := [none, some 7])).withFetchWord 32 0x01000000

/-- A state whose sixteenth port call fails. -/
def sixteenthCallFails : State :=
  start (outcomes := [none, none, none, none, none, none, none, none, none, none, none, none, none, none, none, some 3])

/-- For `EncodeOfDecodeIsTheCanonicalWord`: a word with unread bits set. -/
theorem test_witness_encode_of_decode : decodeFields ⟨0x40, 0xF1, 0x03, 0x00⟩ = .ok (.addi 1 3) := by decide

/-- For `UnreadBitsAreIgnored`: two different words with the same canonical word. -/
theorem test_witness_unread_bits :
    formOf 0x40 = some .addi ∧
      Fields.canonical .addi ⟨0x40, 0xF1, 0x03, 0x00⟩ = Fields.canonical .addi ⟨0x40, 0x01, 0x03, 0x00⟩ ∧
      (⟨0x40, 0xF1, 0x03, 0x00⟩ : Fields) ≠ ⟨0x40, 0x01, 0x03, 0x00⟩ := by decide

/-- For `InvalidOpcodesAreTheListedRanges`: ends of ranges, and their valid neighbours. -/
theorem test_witness_invalid_ranges :
    (formOf 0x0F = none ∧ formOf 0x19 = none ∧ formOf 0x1F = none ∧ formOf 0xE6 = none ∧ formOf 0xFF = none) ∧
      (formOf 0x0E = some .sng ∧ formOf 0x10 = some .jmp ∧ formOf 0x18 = some .callR ∧ formOf 0x20 = some .ldi) ∧
      formOf 0xE5 = some .negRr := by decide

/-- For `StepRunsTheDecodedInstruction`, `InvariantKeptByEveryStep` and `CyclesCountStepsAndAreInvisible`: a step that
goes on. -/
theorem test_witness_step_goes_on :
    aboutToAdd.fault = none ∧ aboutToAdd.Inv ∧ decodeFields aboutToAdd.fetch = .ok (.addi 1 3) ∧
      completes (exec (.addi 1 3) aboutToAdd) = true ∧ completes (step aboutToAdd) = true := by decide

/-- For `StepRunsTheDecodedInstruction`, `DivisionByZeroFaultsBeforeAnyWrite` and
`FaultingStepWritesNothingAndIsTerminal`: a step that faults. -/
theorem test_witness_step_faults :
    aboutToDivideByZero.fault = none ∧ decodeFields aboutToDivideByZero.fetch = .ok (.divi 1 0) ∧
      (Instr.divi 1 0).divisor aboutToDivideByZero = some 0 ∧
      faults (exec (.divi 1 0) aboutToDivideByZero) (.divisionByZero 0) = true ∧
      faults (step aboutToDivideByZero) (.divisionByZero 0) = true := by decide

/-- For `FaultingStepWritesNothingAndIsTerminal`: a step that ends with each of the other three faults. -/
theorem test_witness_other_faults :
    faults (step (start.withFetchWord 32 0x0F000000)) (.invalidOpcode 0 0x0F) = true ∧
      faults (step aboutToFailOnCls) (.peripheralFailure 0 7 [.gpuClearFg]) = true ∧
      faults (step (start.withFetchWord 32 0x120F0000)) (.reservedCondition 0) = true := by decide

/-- For `DivisionByZeroFaultsBeforeAnyWrite`, through a register that holds 0. -/
theorem test_witness_divisor_register_is_zero :
    (Instr.div3 5 1 2).divisor start = some 0 ∧ (Instr.mod 1 2).divisor start = some 0 := by decide

/-- For `PlacedInstructionIsTheOneThatRuns`, across the wrap: one that goes on and one that faults. -/
theorem test_witness_placed_across_the_wrap :
    (start (pc := 0xFFFE)).fault = none ∧
      completes (exec (.addi 1 3) ((start (pc := 0xFFFE)).place 0xFFFE (Instr.addi 1 3).fields)) = true ∧
      faults (exec (.divi 1 0) ((start (pc := 0xFFFE)).place 0xFFFE (Instr.divi 1 0).fields))
        (.divisionByZero 0xFFFE) = true := by decide

/-- For `InvalidOpcodeFaultsAtDispatch`: a byte that no form has. -/
theorem test_witness_no_form_has_the_byte :
    (start.withFetchWord 32 0x0F000000).fault = none ∧
      Form.all.all (fun f => params.opcodeMap f != (start.withFetchWord 32 0x0F000000).read8 0) = true := by decide

/-- For `InvalidOpcodeFaultsAtDispatch`: a byte that a form has. -/
theorem test_witness_a_form_has_the_byte : params.opcodeMap .addi = aboutToAdd.read8 aboutToAdd.pc := by decide

/-- For `LaunchedImageIsRead`: an image over the two ends of memory, and an address outside it. -/
theorem test_witness_image :
    (([(0x0000, 0x40), (0xFFFF, 0x01)] : List (Word × Byte)).map Prod.fst).Nodup ∧
      ((0xFFFF : Word), (0x01 : Byte)) ∈ ([(0x0000, 0x40), (0xFFFF, 0x01)] : List (Word × Byte)) ∧
      (0x0001 : Word) ∉ ([(0x0000, 0x40), (0xFFFF, 0x01)] : List (Word × Byte)).map Prod.fst := by decide

/-- For `CanonicalMemoriesThatReadAlikeAreEqual`: two memories written in different orders. -/
theorem test_witness_canonical_memories :
    ((start.write8 5 7).write8 0xFFFF 1).mem.wf = true ∧ ((start.write8 0xFFFF 1).write8 5 7).mem.wf = true ∧
      ((start.write8 5 7).write8 0xFFFF 1).mem = ((start.write8 0xFFFF 1).write8 5 7).mem := by decide

/-- For `FinalStatesOnlyCountCycles`: vector F.2, and the same state with a fault latched, which is not final. -/
theorem test_witness_final :
    ((start (pc := 0x0008)).withFetchWord 32 0x10000800).Final ∧
      { (start (pc := 0x0008)).withFetchWord 32 0x10000800 with fault := some (.divisionByZero 4) }.fault =
        some (.divisionByZero 4) ∧
      ¬ State.Final
        { (start (pc := 0x0008)).withFetchWord 32 0x10000800 with fault := some (.divisionByZero 4) } := by decide

/-- For `OnlyNamedFlagsAreWritten`, `OnlyNamedRegistersAreWritten`, `OnlyNamedBytesAreStored`,
`OnlyStackInstructionsUseSp` and `OtherInstructionsAdvanceByFour`. -/
theorem test_witness_frames :
    completes (exec (.stm 1 0xFFFF) start) = true ∧ (Instr.stm 1 0xFFFF).form.writesC = false ∧
      (Instr.stm 1 0xFFFF).form.writesO = false ∧ (Instr.stm 1 0xFFFF).form.writesZN = false ∧
      (Instr.stm 1 0xFFFF).form.usesSp = false ∧ (Instr.stm 1 0xFFFF).form.setsPc = false := by decide

/-- For `PortCallsAreThoseOfTheInstruction`: a form with two port calls. -/
theorem test_witness_port_calls :
    completes (exec .cls start) = true ∧ (Instr.cls.portCalls start).length = 2 := by decide

/-- For `EveryInstructionCompletes`: a form of each of the three hypotheses. -/
theorem test_witness_completes :
    ((Instr.divi 1 1).divisor start ≠ some 0 ∧ (Instr.divi 1 1).condition ≠ some .reserved ∧
      start.PortsHealthy ((Instr.divi 1 1).portCalls start).length) ∧
    ((Instr.jcc .le 0).divisor start ≠ some 0 ∧ (Instr.jcc .le 0).condition ≠ some .reserved ∧
      start.PortsHealthy ((Instr.jcc .le 0).portCalls start).length) ∧
    ((Instr.pal 0xFFFF).divisor start ≠ some 0 ∧ (Instr.pal 0xFFFF).condition ≠ some .reserved ∧
      start.PortsHealthy ((Instr.pal 0xFFFF).portCalls start).length) := by decide

/-- For `FaultsHaveExactlyTheirCauses`: each of the three causes. -/
theorem test_witness_causes :
    (Instr.modi 1 0).divisor start = some 0 ∧ (Instr.callcc .reserved 0).condition = some .reserved ∧
      1 < (Instr.cls.portCalls aboutToFailOnCls).length ∧ aboutToFailOnCls.PortFailsAt 1 7 := by decide

/-- For `PeripheralErrorEndsTheStep`: the second of two calls, and the last of PAL's sixteen. -/
theorem test_witness_port_failure :
    (1 < (Instr.cls.portCalls aboutToFailOnCls).length ∧ aboutToFailOnCls.PortFailsAt 1 7 ∧
      aboutToFailOnCls.fault = none ∧ decodeFields aboutToFailOnCls.fetch = .ok .cls) ∧
    (15 < ((Instr.pal 0xFFFF).portCalls sixteenthCallFails).length ∧ sixteenthCallFails.PortFailsAt 15 3) := by decide

/-- For `PushAndPopAreInverse` and `CallsPushTheReturnAddress`: conditions that hold and that do not. -/
theorem test_witness_conditions :
    evalCond .b start.flags = some true ∧ evalCond .z start.flags = some false := by decide

/-- For `ConditionsAfterCompareMeanTheirNames`. -/
theorem test_witness_compare : completes (exec (.cmp 1 2) (start (regs := [(1, 0x8000), (2, 0x7FFF)]))) = true := by
  decide

/-- For `DivideFormsGiveTheQuotient` and `ModuloFormsGiveTheRemainder`: the least and the greatest divisor. -/
theorem test_witness_divisors :
    (1 : Word) ≠ 0 ∧ (0xFFFF : Word) ≠ 0 ∧ (start (regs := [(2, 1)])).reg 2 ≠ 0 ∧
      (start (regs := [(2, 0xFFFF)])).reg 2 ≠ 0 := by decide

/-- For `JumpsChangeOnlyPc`: equal registers, and registers that differ in bit 15 alone. -/
theorem test_witness_jme :
    (start (regs := [(1, 7), (2, 7)])).reg 1 = (start (regs := [(1, 7), (2, 7)])).reg 2 ∧
      (start (regs := [(1, 7), (2, 0x8007)])).reg 1 ≠ (start (regs := [(1, 7), (2, 0x8007)])).reg 2 := by decide

/-- For `ConditionalJumpFollowsTheTable`: the first and the last named code, each with flags that meet and that do not
meet it. -/
theorem test_witness_named_conditions :
    (Cond.z ≠ .reserved ∧ condCode .z = 0 ∧ evalCond .z (czon 0 1 0 0) = some true ∧
      evalCond .z (czon 0 0 0 0) = some false) ∧
    (Cond.le ≠ .reserved ∧ condCode .le = 14 ∧ evalCond .le (czon 0 1 0 0) = some true ∧
      evalCond .le (czon 0 0 0 0) = some false) := by decide

/-- For `ZeroClearSeparatesCodesZeroAndOne`. -/
theorem test_witness_zero_clear : start.flags.z = false := by decide

/-- The state a completed step leaves. -/
def nextOf (r : Result) : State :=
  match r with
  | .next t => t
  | .fault _ => start
  | .refused _ => start

/-- For `CallThenReturnComesBack`: a call with `pc` and `sp` at the wrap, then RET; the register form; and a CALLcc whose
condition holds. -/
theorem test_witness_call_then_return :
    (completes (exec (.call 0x0300) (start (pc := 0xFFFC) (sp := 0xFFFF))) = true ∧
      completes (exec .ret (nextOf (exec (.call 0x0300) (start (pc := 0xFFFC) (sp := 0xFFFF))))) = true) ∧
    (completes (exec (.callR 2) start) = true ∧ completes (exec .ret (nextOf (exec (.callR 2) start))) = true) ∧
    (evalCond .z (czon 0 1 0 0) = some true ∧
      completes (exec (.callcc .z 0x0300) (start (flags := czon 0 1 0 0) (sp := 0xFFFF))) = true ∧
      completes (exec .ret (nextOf (exec (.callcc .z 0x0300) (start (flags := czon 0 1 0 0) (sp := 0xFFFF))))) = true) := by
  decide

/-- A state about to save its registers in a block that straddles the wrap. -/
def aboutToSave : State := start (regs := [(3, 0xBEEF)]) (sp := 0xFFF0)

/-- After PUSHALL, with a register, the flags, `pc` and a byte outside the block changed. -/
def betweenSaveAndRestore : State :=
  (((nextOf (exec .pushall aboutToSave)).setReg 3 0).setFlags (czon 1 1 1 1) |>.jump 0x4444).write8 0x0010 9

/-- For `PushallThenPopallRestores`. -/
theorem test_witness_pushall_popall :
    completes (exec .pushall aboutToSave) = true ∧
      betweenSaveAndRestore.sp = (nextOf (exec .pushall aboutToSave)).sp ∧
      ((savedBlock 0xFFF0).all fun a =>
        betweenSaveAndRestore.read8 a == (nextOf (exec .pushall aboutToSave)).read8 a) = true ∧
      completes (exec .popall betweenSaveAndRestore) = true := by decide

/-- For `PushfThenPopfRestores`. -/
theorem test_witness_pushf_popf :
    completes (exec .pushf (start (flags := czon 1 0 1 0) (sp := 0xFFFF))) = true ∧
      completes (exec .popf ((nextOf (exec .pushf (start (flags := czon 1 0 1 0) (sp := 0xFFFF)))).setFlags
        (czon 0 1 0 1))) = true := by decide

/-- For `SendersMakeTheirCallsAndAdvance`: the longest sender, with sixteen outcomes that do not fail. -/
theorem test_witness_senders :
    ((Instr.pal 0x4000).portCalls start).length = 16 ∧
      (start (outcomes := List.replicate 16 none)).PortsHealthy 16 := by decide

/-- For `VblnkRetriesUntilVerticalBlank`: each answer, listed, and none listed. -/
theorem test_witness_vblnk :
    (start (vblank := [true])).PortsHealthy 1 ∧ (start (vblank := [true])).vblankAnswer = true ∧
      (start (vblank := [true])).inputs.vblank = [true] ∧ (start (vblank := [false, true])).vblankAnswer = false ∧
      start.PortsHealthy 1 ∧ start.inputs.vblank = [] := by decide

/-- For `DrawPutsTheOverlapInCarry`: both forms have their sprite address here; an answer listed, and none. -/
theorem test_witness_draw :
    (start (outcomes := [none, some 1]) (overlap := [true])).PortsHealthy 1 ∧
      (start (outcomes := [none, some 1]) (overlap := [true])).inputs.overlap = [true] ∧
      (start.PortsHealthy 1 ∧ start.inputs.overlap = []) ∧
      wordAt (start (regs := [(3, 0xFFFF)]) (mem := [(0xFFFF, 0x34), (0, 0x12)])) 0xFFFF = 0x1234 := by decide

/-- For `RandomStaysInItsRange`: the bounds of the range as listed answers, and none listed. -/
theorem test_witness_random :
    (start (random := [0xFFFF])).PortsHealthy 1 ∧ (start (random := [0xFFFF])).inputs.random = [0xFFFF] ∧
      (0xFFFF : Word).toNat ≤ (0xFFFF : Word).toNat ∧ (start (random := [0])).inputs.random = [0] ∧
      (0 : Word).toNat ≤ (0 : Word).toNat ∧ start.PortsHealthy 1 ∧ start.inputs.random = [] := by decide

end Sys2Proof.Tests
end

/-! # The state: what every step keeps (10_state.md)

One frame per instruction (`exec_frame`) and one non-interference law (`exec_mapHidden`) carry the whole-machine
rules; the faulted and the final state follow from what `step` answers on them. -/

namespace Sys2Proof.Machine

variable {s t : State} {i : Instr}

/-! ## What `step` answers -/

theorem step_of_decoded (hf : s.fault = none) (hd : decodeFields s.fetch = .ok i) :
    step s = Result.andThen (exec i s) fun t => .next t.countCycle := by
  unfold step
  rw [hf, hd]

theorem step_of_latched {f : Fault} (hf : s.fault = some f) : step s = .refused (.coreFaulted f) := by
  unfold step
  rw [hf]

theorem requestStep_of_fault {f : Fault} (h : step s = .fault f) : s.requestStep = s.latch f := by
  unfold State.requestStep
  rw [h]

/-- A core with a latched fault ignores a step request (R36). -/
theorem requestStep_of_latched {f : Fault} (hf : s.fault = some f) : s.requestStep = s := by
  unfold State.requestStep
  rw [step_of_latched hf]

theorem not_final_of_latched {f : Fault} (hf : s.fault = some f) : ¬ s.Final := by
  rintro ⟨hnone, -⟩
  simp [hf] at hnone

/-! ## The frame of an instruction -/

/-- A flag that the table of R31 does not give to a form is the same before and after. -/
def FlagsKeptBy (f : Form) (old new : Flags) : Prop :=
  (f.writesC = false → new.c = old.c) ∧ (f.writesO = false → new.o = old.o) ∧
    (f.writesZN = false → new.z = old.z ∧ new.n = old.n)

@[simp] theorem FlagsKeptBy.refl (f : Form) (a : Flags) : FlagsKeptBy f a a :=
  ⟨fun _ => rfl, fun _ => rfl, fun _ => ⟨rfl, rfl⟩⟩

/-- What one instruction leaves as it was, by the tables of 10_state.md (R22, R25, R28, R31), and that it keeps memory
canonical. -/
structure InstrFrame (i : Instr) (s t : State) : Prop where
  wf : s.mem.wf = true → t.mem.wf = true
  flags : FlagsKeptBy i.form s.flags t.flags
  regs : RegsKeptBut i.writesRegs s t
  sp : i.form.usesSp = false → t.sp = s.sp
  pc : i.form.setsPc = false → t.pc = s.pc + 4

theorem InstrFrame.advance : InstrFrame i s s.advance :=
  ⟨id, .refl _ _, fun _ _ => rfl, fun _ => rfl, fun _ => rfl⟩

theorem InstrFrame.jump (target : Word) (hpc : i.form.setsPc = true) : InstrFrame i s (s.jump target) :=
  ⟨id, .refl _ _, fun _ _ => rfl, fun _ => rfl, by simp [hpc]⟩

theorem InstrFrame.callTo (target : Word) (hsp : i.form.usesSp = true) (hpc : i.form.setsPc = true) :
    InstrFrame i s (s.callTo target) :=
  ⟨fun hw => Memory.wf_write16 hw _ _, .refl _ _, fun _ _ => rfl, by simp [hsp], by simp [hpc]⟩

theorem InstrFrame.write16 (a v : Word) : InstrFrame i s (s.write16 a v).advance :=
  ⟨fun hw => Memory.wf_write16 hw a v, .refl _ _, fun _ _ => rfl, fun _ => rfl, fun _ => rfl⟩

theorem InstrFrame.sendCalls {calls : List PortCall} (h : sendCalls calls s = .next t) : InstrFrame i s t := by
  obtain ⟨-, rfl⟩ := sendCalls_next h
  exact ⟨id, .refl _ _, fun _ _ => rfl, fun _ => rfl, fun _ => rfl⟩

theorem InstrFrame.setReg {x : RegIdx} (v : Word) (hx : i.writesRegs = [x]) :
    InstrFrame i s (s.setReg x v).advance :=
  ⟨id, .refl _ _, fun _ hj => State.reg_setReg_other s (by simpa [hx] using hj) v, fun _ => rfl, fun _ => rfl⟩

theorem InstrFrame.aluWrite {d : RegIdx} {r : Word × Flags} (hd : i.writesRegs = [d])
    (hr : FlagsKeptBy i.form s.flags r.2) : InstrFrame i s (s.aluWrite d r) :=
  ⟨id, hr, fun _ hj => State.reg_aluWrite_other s (by simpa [hd] using hj) r, fun _ => rfl, fun _ => rfl⟩

theorem InstrFrame.aluDiscard {r : Word × Flags} (hr : FlagsKeptBy i.form s.flags r.2) :
    InstrFrame i s (s.aluDiscard r) :=
  ⟨id, hr, fun _ _ => rfl, fun _ => rfl, fun _ => rfl⟩

/-- Every instruction that goes on has its frame. -/
theorem exec_frame (h : exec i s = .next t) : InstrFrame i s t := by
  cases i
  case cls | bgc | spr | flip | snd0 | snd1 | snd2 | snd3 | snp | sng | pal | palR => exact .sendCalls h
  case drw | drwR =>
    obtain ⟨-, rfl⟩ := drawSprite_next h
    exact ⟨by simp, ⟨nofun, by simp, by simp⟩, fun _ _ => by simp, by simp, by simp⟩
  case rnd x m =>
    obtain ⟨-, rfl⟩ := execRnd_next h
    refine ⟨by simp, by simp, fun j hj => ?_, by simp, by simp⟩
    simp [State.reg_setReg_other _ (show j ≠ x by simpa [Instr.writesRegs] using hj)]
  case vblnk =>
    obtain ⟨-, rfl⟩ := execVblnk_next h
    split <;> exact ⟨by simp, by simp, fun _ _ => by simp, by simp, nofun⟩
  case nop => obtain rfl := Host.Outcome.next.inj h; exact .advance
  case jmp | jmpR => obtain rfl := Host.Outcome.next.inj h; exact .jump _ rfl
  case jme => obtain rfl := Host.Outcome.next.inj h; split; exacts [.jump _ rfl, .advance]
  case jcc => obtain ⟨-, rfl⟩ | ⟨-, rfl⟩ := whenCond_next h; exacts [.jump _ rfl, .advance]
  case callcc => obtain ⟨-, rfl⟩ | ⟨-, rfl⟩ := whenCond_next h; exacts [.callTo _ rfl rfl, .advance]
  case call | callR => obtain rfl := Host.Outcome.next.inj h; exact .callTo _ rfl rfl
  case ldi | ldm | ldmRr => obtain rfl := Host.Outcome.next.inj h; exact .setReg _ rfl
  case stm | stmRr => obtain rfl := Host.Outcome.next.inj h; exact .write16 _ _
  case addi | add | add3 | subi | sub | sub3 =>
    obtain rfl := Host.Outcome.next.inj h
    exact .aluWrite rfl ⟨nofun, nofun, nofun⟩
  case cmpi | cmp =>
    obtain rfl := Host.Outcome.next.inj h
    exact .aluDiscard ⟨nofun, nofun, nofun⟩
  case muli | mul | mul3 =>
    obtain rfl := Host.Outcome.next.inj h
    exact .aluWrite rfl ⟨nofun, fun _ => rfl, nofun⟩
  case divi | div | div3 =>
    obtain ⟨r, hr, rfl⟩ := aluDivide_next h
    exact .aluWrite rfl ⟨nofun, fun _ => div16_overflow hr, nofun⟩
  case modi | mod | mod3 =>
    obtain ⟨r, hr, rfl⟩ := aluDivide_next h
    exact .aluWrite rfl ⟨nofun, fun _ => mod16_overflow hr, nofun⟩
  case tsti | tst =>
    obtain rfl := Host.Outcome.next.inj h
    exact .aluDiscard ⟨fun _ => rfl, fun _ => rfl, nofun⟩
  case andi | and | and3 | ori | or | or3 | xori | xor | xor3 | shl | shr | noti | notR | notRr | negi | negR | negRr =>
    obtain rfl := Host.Outcome.next.inj h
    exact .aluWrite rfl ⟨fun _ => rfl, fun _ => rfl, nofun⟩
  case ldiSp =>
    obtain rfl := Host.Outcome.next.inj h
    exact ⟨id, .refl _ _, fun _ _ => rfl, nofun, fun _ => rfl⟩
  case ret =>
    obtain rfl := Host.Outcome.next.inj h
    exact ⟨id, .refl _ _, fun _ _ => rfl, nofun, nofun⟩
  case push | pushf =>
    obtain rfl := Host.Outcome.next.inj h
    exact ⟨fun hw => Memory.wf_write16 hw _ _, .refl _ _, fun _ _ => rfl, nofun, fun _ => rfl⟩
  case pop x =>
    obtain rfl := Host.Outcome.next.inj h
    exact ⟨id, .refl _ _, (InstrFrame.setReg (i := .pop x) s.popped rfl).regs, nofun, fun _ => rfl⟩
  case popf =>
    obtain rfl := Host.Outcome.next.inj h
    exact ⟨id, ⟨nofun, nofun, nofun⟩, fun _ _ => rfl, nofun, fun _ => rfl⟩
  case pushall =>
    obtain rfl := Host.Outcome.next.inj h
    exact ⟨fun hw => State.wf_storeRegs hw _ _, by simp, fun _ _ => by simp, nofun, by simp⟩
  case popall =>
    obtain rfl := Host.Outcome.next.inj h
    exact ⟨by simp, by simp, fun j hj => absurd (mem_allRegs j) hj, nofun, by simp⟩

/-! ## Non-interference: the step counter and `sp` -/

/-- The state with another `sp` and another step counter. -/
def State.mapHidden (f : Word → Word) (g : Nat → Nat) (s : State) : State :=
  { s with sp := f s.sp, cycles := g s.cycles }

/-- The same answer, with the hidden fields of the state it goes on with changed. -/
abbrev Result.mapHidden (f : Word → Word) (g : Nat → Nat) (r : Result) : Result :=
  r.andThen fun t => .next (t.mapHidden f g)

section
variable (f : Word → Word) (g : Nat → Nat)

theorem sp_mapHidden_id : (s.mapHidden id g).sp = s.sp := rfl

theorem setSp_mapHidden_id (v : Word) : (s.mapHidden id g).setSp v = (s.setSp v).mapHidden id g := rfl

theorem advance_mapHidden : (s.mapHidden f g).advance = s.advance.mapHidden f g := rfl

theorem takeVblank_mapHidden : (s.mapHidden f g).takeVblank = s.takeVblank.mapHidden f g := by
  cases hq : s.inputs.vblank <;> simp [State.takeVblank, State.mapHidden, hq]

theorem takeOverlap_mapHidden : (s.mapHidden f g).takeOverlap = s.takeOverlap.mapHidden f g := by
  cases hq : s.inputs.overlap <;> simp [State.takeOverlap, State.mapHidden, hq]

theorem takeRandom_mapHidden : (s.mapHidden f g).takeRandom = s.takeRandom.mapHidden f g := by
  cases hq : s.inputs.random <;> simp [State.takeRandom, State.mapHidden, hq]

theorem Result.andThen_mapHidden {r : Result} {k : State → Result}
    (hk : ∀ t, k (t.mapHidden f g) = (k t).mapHidden f g) :
    (r.mapHidden f g).andThen k = (r.andThen k).mapHidden f g := by
  cases r with
  | next t => exact hk t
  | fault _ | refused _ => rfl

theorem callPorts_mapHidden (calls : List PortCall) :
    callPorts calls (s.mapHidden f g) = (callPorts calls s).mapHidden f g := by
  cases hr : callPorts calls s with
  | next t =>
    obtain ⟨hh, rfl⟩ := callPorts_next hr
    exact callPorts_healthy hh
  | fault e =>
    obtain ⟨k, e, hk, hh, ho, rfl⟩ := callPorts_fault hr
    exact callPorts_failing hk hh ho
  | refused e => exact absurd hr callPorts_ne_refused

/-- Port calls and what an instruction does after them take the change of the hidden fields alike. -/
theorem callPorts_andThen_mapHidden (calls : List PortCall) {k : State → Result}
    (hk : ∀ t, k (t.mapHidden f g) = (k t).mapHidden f g) :
    (callPorts calls (s.mapHidden f g)).andThen k = ((callPorts calls s).andThen k).mapHidden f g := by
  rw [callPorts_mapHidden, Result.andThen_mapHidden f g hk]

theorem sendCalls_mapHidden (calls : List PortCall) :
    sendCalls calls (s.mapHidden f g) = (sendCalls calls s).mapHidden f g :=
  callPorts_andThen_mapHidden f g calls fun _ => rfl

theorem address_value_mapHidden (a : Address) : a.value (s.mapHidden f g) = a.value s := by cases a <;> rfl

theorem source_value_mapHidden (b : Source) : b.value (s.mapHidden f g) = b.value s := by cases b <;> rfl

theorem drawSprite_mapHidden (a : Address) (x y : RegIdx) :
    drawSprite a x y (s.mapHidden f g) = (drawSprite a x y s).mapHidden f g := by
  unfold drawSprite
  rw [address_value_mapHidden]
  refine callPorts_andThen_mapHidden f g _ fun t => ?_
  rw [takeOverlap_mapHidden]
  rfl

theorem execRnd_mapHidden (x : RegIdx) (m : Word) :
    execRnd x m (s.mapHidden f g) = (execRnd x m s).mapHidden f g := by
  refine callPorts_andThen_mapHidden f g _ fun t => ?_
  rw [takeRandom_mapHidden]
  rfl

theorem execVblnk_mapHidden : execVblnk (s.mapHidden f g) = (execVblnk s).mapHidden f g := by
  refine callPorts_andThen_mapHidden f g _ fun t => ?_
  have hv : (t.mapHidden f g).vblankAnswer = t.vblankAnswer := rfl
  rw [takeVblank_mapHidden, hv]
  cases t.vblankAnswer <;> rfl

theorem loadPalette_mapHidden (a : Address) :
    loadPalette a (s.mapHidden f g) = (loadPalette a s).mapHidden f g := by
  unfold loadPalette
  rw [address_value_mapHidden]
  exact sendCalls_mapHidden f g _

theorem aluDivide_mapHidden (op : Word → Word → Flags → Option (Word × Flags)) (d x : RegIdx) (b : Source) :
    aluDivide op d x b (s.mapHidden f g) = (aluDivide op d x b s).mapHidden f g := by
  have hop : op ((s.mapHidden f g).reg x) (b.value (s.mapHidden f g)) (s.mapHidden f g).flags =
      op (s.reg x) (b.value s) s.flags := by rw [source_value_mapHidden]; rfl
  unfold aluDivide
  rw [hop]
  cases op (s.reg x) (b.value s) s.flags <;> rfl

theorem whenCond_mapHidden (c : Cond) (go : State) :
    whenCond c (s.mapHidden f g) (go.mapHidden f g) = (whenCond c s go).mapHidden f g := by
  have hc : evalCond c (s.mapHidden f g).flags = evalCond c s.flags := rfl
  unfold whenCond
  rw [hc]
  rcases evalCond c s.flags with _ | _ | _ <;> rfl

theorem storeRegs_mapHidden (base : Word) (l : List RegIdx) :
    (s.mapHidden f g).storeRegs base l = (s.storeRegs base l).mapHidden f g := by
  induction l generalizing s with
  | nil => rfl
  | cons i rest ih => exact ih (s := s.write16 (slotOf base i) (s.reg i))

theorem loadRegs_mapHidden (base : Word) (l : List RegIdx) :
    (s.mapHidden f g).loadRegs base l = (s.loadRegs base l).mapHidden f g := by
  induction l generalizing s with
  | nil => rfl
  | cons i rest ih => exact ih (s := s.setReg i (s.read16 (slotOf base i)))

/-- No instruction looks at the step counter or changes it, and one outside the list of R28 does not look at `sp`:
it does the same whatever the two hold. -/
theorem exec_mapHidden (hf : i.form.usesSp = false ∨ f = id) :
    exec i (s.mapHidden f g) = Result.mapHidden f g (exec i s) := by
  cases i
  case cls | bgc | spr | flip | snd0 | snd1 | snd2 | snd3 | snp | sng => exact sendCalls_mapHidden f g _
  case pal | palR => exact loadPalette_mapHidden f g _
  case drw | drwR => exact drawSprite_mapHidden f g _ _ _
  case rnd => exact execRnd_mapHidden f g _ _
  case vblnk => exact execVblnk_mapHidden f g
  case divi | div | div3 | modi | mod | mod3 => exact aluDivide_mapHidden f g _ _ _ _
  case jcc c target => exact whenCond_mapHidden f g c (s.jump target)
  case jme x y imm =>
    have hxy : (s.mapHidden f g).reg x = (s.mapHidden f g).reg y ↔ s.reg x = s.reg y := Iff.rfl
    simp only [exec_jme, hxy]
    split <;> rfl
  case callcc c target =>
    obtain rfl : f = id := hf.resolve_left nofun
    exact whenCond_mapHidden id g c (s.callTo target)
  case pushall =>
    obtain rfl : f = id := hf.resolve_left nofun
    rw [exec_pushall, exec_pushall, sp_mapHidden_id, storeRegs_mapHidden, setSp_mapHidden_id, advance_mapHidden]
    rfl
  case popall =>
    obtain rfl : f = id := hf.resolve_left nofun
    rw [exec_popall, exec_popall, sp_mapHidden_id, setSp_mapHidden_id, loadRegs_mapHidden, advance_mapHidden]
    rfl
  case ldiSp | call | callR | ret | push | pop | pushf | popf =>
    obtain rfl : f = id := hf.resolve_left nofun
    rfl
  all_goals rfl
end

/-! ## The obligations -/

/-- Settles O12: the instruction's frame keeps memory canonical, and no instruction touches the latch. -/
theorem invariantKeptByEveryStep : Obligations.InvariantKeptByEveryStep := by
  rintro s t ⟨hwf, hfault⟩ h
  obtain ⟨-, i, u, -, hu, rfl⟩ := step_next h
  exact ⟨(exec_frame hu).wf hwf, (exec_keeps hu).2.trans hfault⟩

/-- Settles O15: `step` counts what no instruction touches, and `exec_mapHidden` with `sp` left alone. -/
theorem cyclesCountStepsAndAreInvisible : Obligations.CyclesCountStepsAndAreInvisible := by
  refine ⟨fun s t h => ?_, fun i s n => exec_mapHidden id (fun _ => n) (.inr rfl)⟩
  obtain ⟨-, i, u, -, hu, rfl⟩ := step_next h
  rw [State.cycles_countCycle, (exec_keeps hu).1]

/-- Settles O16, by the frame of each instruction. -/
theorem onlyNamedFlagsAreWritten : Obligations.OnlyNamedFlagsAreWritten :=
  fun _ _ _ h => (exec_frame h).flags

/-- Settles O17, by the frame of each instruction. -/
theorem onlyNamedRegistersAreWritten : Obligations.OnlyNamedRegistersAreWritten :=
  fun _ _ _ h => (exec_frame h).regs

/-- Settles O14: a JMP to its own address changes nothing, so the step only counts. -/
theorem finalStatesOnlyCountCycles : Obligations.FinalStatesOnlyCountCycles := by
  refine ⟨fun s hs => ⟨?_, hs⟩, fun _ _ => not_final_of_latched⟩
  obtain ⟨hfault, hjmp⟩ := hs
  rw [step_of_decoded hfault hjmp, exec_jmp]
  rfl

/-- Settles O19: the frame keeps `sp`, and `exec_mapHidden` replaces it. -/
theorem onlyStackInstructionsUseSp : Obligations.OnlyStackInstructionsUseSp :=
  fun _ _ hsp => ⟨fun _ h => (exec_frame h).sp hsp, fun v => exec_mapHidden (fun _ => v) id (.inl hsp)⟩

/-- Settles O20, by the frame of each instruction. -/
theorem otherInstructionsAdvanceByFour : Obligations.OtherInstructionsAdvanceByFour :=
  fun _ _ _ hpc h => (exec_frame h).pc hpc

/-- Settles O24: the host sees the state before the step with the latch set, and a latched core does nothing. -/
theorem faultingStepWritesNothingAndIsTerminal : Obligations.FaultingStepWritesNothingAndIsTerminal := by
  intro s f h
  have hnone : s.fault = none := (step_fault h).1
  have hlatched : (s.latch f).fault = some f := State.fault_latch s f
  simp only [requestStep_of_fault h]
  exact ⟨rfl, rfl, rfl, rfl, rfl, hlatched, by rw [State.status, hnone], by cases f <;> rfl,
    step_of_latched hlatched, requestStep_of_latched hlatched, not_final_of_latched hlatched⟩

/-- Settles O11: the empty memory is canonical, and reset clears the latch. -/
theorem invariantHoldsAtReset : Obligations.InvariantHoldsAtReset := ⟨Memory.wf_reset, rfl⟩

end Sys2Proof.Machine

/-! # The memory: reads, stores, fetch and the image (20_memory.md)

One law says which bytes each instruction stores (`exec_memKeptBut`); a canonical memory is determined by its members,
which its reads determine; and what an instruction's bytes decode to ties a store to the next fetch. -/

namespace Sys2Proof.Machine

variable {s t : State} {i : Instr} {m m' : Memory}

/-! ## Stored bytes -/

theorem memKeptBut_of_mem_eq {l : List Word} (h : t.mem = s.mem) : MemKeptBut l s t :=
  fun a _ => congrArg (Memory.read8 · a) h

/-- An instruction stores to the bytes its rule names and to no other (R59). -/
theorem exec_memKeptBut (h : exec i s = .next t) : MemKeptBut (i.stores s) s t := by
  cases i
  case cls | bgc | spr | flip | snd0 | snd1 | snd2 | snd3 | snp | sng | pal | palR =>
    obtain ⟨-, rfl⟩ := sendCalls_next h
    exact memKeptBut_of_mem_eq rfl
  case drw | drwR => obtain ⟨-, rfl⟩ := drawSprite_next h; exact memKeptBut_of_mem_eq (by simp)
  case rnd => obtain ⟨-, rfl⟩ := execRnd_next h; exact memKeptBut_of_mem_eq (by simp)
  case vblnk => obtain ⟨-, rfl⟩ := execVblnk_next h; split <;> exact memKeptBut_of_mem_eq (by simp)
  case divi | div | div3 | modi | mod | mod3 =>
    obtain ⟨-, -, rfl⟩ := aluDivide_next h
    exact memKeptBut_of_mem_eq rfl
  case jcc => obtain ⟨-, rfl⟩ | ⟨-, rfl⟩ := whenCond_next h <;> exact memKeptBut_of_mem_eq rfl
  case jme => obtain rfl := Host.Outcome.next.inj h; split <;> exact memKeptBut_of_mem_eq rfl
  case popall => obtain rfl := Host.Outcome.next.inj h; exact memKeptBut_of_mem_eq (by simp)
  case callcc =>
    obtain ⟨-, rfl⟩ | ⟨-, rfl⟩ := whenCond_next h
    · exact memKeptBut_write16 s s.sp (s.pc + 4)
    · exact memKeptBut_of_mem_eq rfl
  case call | callR => obtain rfl := Host.Outcome.next.inj h; exact memKeptBut_write16 s s.sp (s.pc + 4)
  case stm x a => obtain rfl := Host.Outcome.next.inj h; exact memKeptBut_write16 s a (s.reg x)
  case stmRr x y => obtain rfl := Host.Outcome.next.inj h; exact memKeptBut_write16 s (s.reg y) (s.reg x)
  case push x => obtain rfl := Host.Outcome.next.inj h; exact memKeptBut_write16 s s.sp (s.reg x)
  case pushf =>
    obtain rfl := Host.Outcome.next.inj h
    exact memKeptBut_write16 s s.sp ((packFlags s.flags).zeroExtend 16)
  case pushall =>
    obtain rfl := Host.Outcome.next.inj h
    intro a ha
    rw [State.read8_advance, State.read8_setSp, State.read8_storeRegs_outside s s.sp allRegs ha]
  all_goals (obtain rfl := Host.Outcome.next.inj h; exact memKeptBut_of_mem_eq rfl)

/-! ## Canonical memories -/

/-- The members of a canonical memory are its bytes that differ from the reset contents. -/
theorem Memory.mem_iff_get (h : m.wf = true) {k : Nat} {v : Byte} :
    (k, v) ∈ m ↔ k < 65536 ∧ v ≠ params.initByte ∧ m.get k = v := by
  induction m with
  | nil => simp +contextual [Memory.get, eq_comm]
  | cons c rest ih =>
    obtain ⟨⟨hk, hv, hlt⟩, hrest⟩ := Memory.wf_cons.mp h
    rw [List.mem_cons, Memory.get]
    by_cases hkc : c.1 = k
    · subst hkc
      have hni : (c.1, v) ∉ rest := fun hmem => lt_irrefl c.1 (hlt (c.1, v) hmem)
      rw [if_pos rfl, or_iff_left hni, Prod.ext_iff]
      exact ⟨fun ⟨_, (e : v = c.2)⟩ => ⟨hk, e ▸ hv, e.symm⟩, fun ⟨_, _, e⟩ => ⟨rfl, e.symm⟩⟩
    · have hne : (k, v) ≠ c := fun e => hkc (congrArg Prod.fst e).symm
      rw [if_neg hkc, or_iff_right hne, ih hrest]

theorem Memory.pairwise_of_wf (h : m.wf = true) : m.Pairwise (·.1 < ·.1) := by
  induction m with
  | nil => exact .nil
  | cons c rest ih =>
    obtain ⟨⟨-, -, hlt⟩, hrest⟩ := Memory.wf_cons.mp h
    exact .cons hlt (ih hrest)

/-- Canonical memories with the same bytes have the same members in the same order. -/
theorem Memory.eq_of_read8 (h : m.wf = true) (h' : m'.wf = true) (hr : ∀ a : Word, m.read8 a = m'.read8 a) :
    m = m' := by
  have hget : ∀ k < 65536, m.get k = m'.get k := fun k hk => by
    simpa [Memory.read8, Nat.mod_eq_of_lt hk] using hr (BitVec.ofNat 16 k)
  refine (Memory.pairwise_of_wf h).eq_of_mem_iff (Memory.pairwise_of_wf h') fun ⟨k, v⟩ => ?_
  rw [Memory.mem_iff_get h, Memory.mem_iff_get h']
  exact and_congr_right fun hk => by rw [hget k hk]

/-! ## Fetch -/

section
variable (f : Form) (x y : RegIdx) (k n : Nibble) (v : Word) (yx ll hh : Byte)
@[simp] theorem x_asm : (asm f (pairXY x y) ll hh).x = x := pairXY_x x y
@[simp] theorem y_asm : (asm f (pairXY x y) ll hh).y = y := pairXY_y x y
@[simp] theorem n4_asm : (asm f yx (joinNibbles k n) hh).n4 = n := lowNibble_joinNibbles k n
@[simp] theorem z_asm : (asm f yx (joinNibbles k (ofReg x)) hh).z = x := congrArg toReg (n4_asm f k (ofReg x) yx hh)
@[simp] theorem hhll_asm : (asm f yx (lowByte v) (highByte v)).hhll = v := joinBytes_halves v
@[simp] theorem cond_asm (c : Cond) : (asm f (joinNibbles k (condCode c)) ll hh).cond = c := by simp [Fields.cond]
@[simp] theorem h_asm (h v : Bool) : (asm f yx ll (flipByte h v)).h = h := by simp [Fields.h]
@[simp] theorem v_asm (h v : Bool) : (asm f yx ll (flipByte h v)).v = v := by simp [Fields.v]
end

/-- A form's operands are read back from the bytes the encoder writes (R74, R78). -/
theorem build_fields (i : Instr) : i.form.build i.fields = i := by
  cases i <;> simp [Instr.form, Form.build, Instr.fields, withImm]

theorem decodeFields_fields (i : Instr) : decodeFields i.fields = .ok i := by
  rw [decodeFields, fields_op, formOf_opcode]
  exact congrArg Except.ok (build_fields i)

/-- The instruction placed at `pc` is what the state fetches, also across the wrap (R57). -/
theorem fetch_place (s : State) (w : Fields) : (s.place s.pc w).fetch = w := fetch_placeNext s w

/-! ## The host's image -/

@[simp] theorem State.loadImage_cons (s : State) (c : Word × Byte) (image : List (Word × Byte)) :
    s.loadImage (c :: image) = (s.write8 c.1 c.2).loadImage image := rfl

/-- Loading an image writes memory only. -/
theorem State.loadImage_other (s : State) (image : List (Word × Byte)) :
    s.loadImage image = { s with mem := (s.loadImage image).mem } := by
  induction image generalizing s with
  | nil => rfl
  | cons c rest ih => rw [State.loadImage_cons, ih]; rfl

theorem State.wf_loadImage (h : s.mem.wf = true) (image : List (Word × Byte)) :
    (s.loadImage image).mem.wf = true := by
  induction image generalizing s with
  | nil => exact h
  | cons c rest ih => exact ih (Memory.wf_write8 h c.1 c.2)

theorem State.read8_loadImage_outside {image : List (Word × Byte)} {a : Word} (h : a ∉ image.map Prod.fst) :
    (s.loadImage image).read8 a = s.read8 a := by
  induction image generalizing s with
  | nil => rfl
  | cons c rest ih =>
    obtain ⟨hc, hrest⟩ := not_or.mp (List.mem_cons.not.mp h)
    rw [State.loadImage_cons, ih hrest, State.read8_write8, if_neg hc]

/-- An image that writes each address once is read back. -/
theorem State.read8_loadImage_of_mem {image : List (Word × Byte)} (hn : (image.map Prod.fst).Nodup) {a : Word}
    {v : Byte} (h : (a, v) ∈ image) : (s.loadImage image).read8 a = v := by
  induction image generalizing s with
  | nil => cases h
  | cons c rest ih =>
    obtain ⟨hc, hrest⟩ := List.nodup_cons.mp hn
    rw [State.loadImage_cons]
    rcases List.mem_cons.mp h with rfl | h'
    · rw [State.read8_loadImage_outside hc, State.read8_write8, if_pos rfl]
    · exact ih hrest h'

/-! ## The obligations -/

/-- Settles O18, by what each instruction stores. -/
theorem onlyNamedBytesAreStored : Obligations.OnlyNamedBytesAreStored := fun _ _ _ => exec_memKeptBut

/-- Settles O7: the placed bytes are fetched and decode to the instruction, which leaves the counter to the step. -/
theorem placedInstructionIsTheOneThatRuns : Obligations.PlacedInstructionIsTheOneThatRuns := by
  intro s i hf
  have hstep : step (s.place s.pc i.fields) = _ :=
    step_of_decoded hf (by rw [fetch_place, decodeFields_fields])
  refine ⟨fun t ht => ?_, fun f he => by rw [hstep, he]; rfl⟩
  have hc : t.cycles = s.cycles := (exec_keeps ht).1
  rw [hstep, ht, ← hc]
  rfl

/-- Settles O10: each byte of the image is written once, and reset memory reads as 0. -/
theorem launchedImageIsRead : Obligations.LaunchedImageIsRead := by
  intro image hn
  have hother := State.loadImage_other State.reset image
  refine ⟨fun a v h => State.read8_loadImage_of_mem hn h, fun a h => State.read8_loadImage_outside h, ?_,
    State.wf_loadImage Memory.wf_reset image, ?_⟩
  · exact congrArg State.pc hother
  · exact congrArg State.fault hother

/-- Settles O13: the reads of a canonical memory give its members, and their order is fixed. -/
theorem canonicalMemoriesThatReadAlikeAreEqual : Obligations.CanonicalMemoriesThatReadAlikeAreEqual :=
  fun _ _ => Memory.eq_of_read8

/-- Settles O25: the store, the read and the immediate join and split words alike. -/
theorem wordsAreLittleEndian : Obligations.WordsAreLittleEndian :=
  ⟨fun s a v => ⟨holdsWord_write16 s a v, State.read16_write16 s a v, memKeptBut_write16 s a v⟩,
    fun s a => (wordAt_eq_read16 s a).symm, fun _ _ ll hh => joinBytes_toNat ll hh⟩

end Sys2Proof.Machine

/-! # The encoding: decode and encode undo each other, and the opcode bytes (30_encoding.md)

`build_fields` reads back what the encoder wrote. Its converse `fields_build` says that encoding the operands a form
reads leaves exactly the bits its format reads; the rules on unread bits follow from the two. -/

namespace Sys2Proof.Machine

variable {f : Form} {w : Fields}

/-! ## What the encoder writes for the operands read from a word -/

section
variable (b : Byte) (w : Fields)

/-- A byte that is read whole is written as it is. -/
theorem and_mask_whole : b &&& 0xFF = b := BitVec.and_allOnes

@[simp] theorem joinNibbles_halves : joinNibbles (highNibble b) (lowNibble b) = b := by revert b; decide

/-- A byte of which the low nibble is read is written with a high nibble of 0 (R76). -/
theorem joinNibbles_zero_lowNibble : joinNibbles 0 (lowNibble b) = b &&& 0x0F := by revert b; decide

@[simp] theorem pairXY_regs : pairXY w.x w.y = w.yx := joinNibbles_halves w.yx

theorem pairXY_x_zero : pairXY w.x 0 = w.yx &&& 0x0F := joinNibbles_zero_lowNibble w.yx

theorem joinNibbles_condCode_cond : joinNibbles 0 (condCode w.cond) = w.yx &&& 0x0F := by
  rw [Fields.cond, condCode_condOf, joinNibbles_zero_lowNibble]

theorem joinNibbles_n4 : joinNibbles 0 w.n4 = w.ll &&& 0x0F := joinNibbles_zero_lowNibble w.ll

theorem joinNibbles_z : joinNibbles 0 (ofReg w.z) = w.ll &&& 0x0F := joinNibbles_zero_lowNibble w.ll

theorem flipByte_bits : flipByte (b.getLsbD 1) (b.getLsbD 0) = b &&& 0x03 := by revert b; decide

theorem flipByte_h_v : flipByte w.h w.v = w.hh &&& 0x03 := flipByte_bits w.hh

@[simp] theorem lowByte_hhll : lowByte w.hhll = w.ll := lowByte_joinBytes w.ll w.hh

@[simp] theorem highByte_hhll : highByte w.hhll = w.hh := highByte_joinBytes w.ll w.hh
end

/-- Masking each operand byte with what the form's format reads of it gives the canonical word. -/
theorem asm_eq_canonical (hop : params.opcodeMap f = w.op) {yx ll hh : Byte}
    (hyx : yx = w.yx &&& (readMask f.format).1)
    (hll : ll = w.ll &&& (readMask f.format).2.1) (hhh : hh = w.hh &&& (readMask f.format).2.2) :
    asm f yx ll hh = w.canonical f := by
  rw [asm, Fields.canonical, hop, hyx, hll, hhh]

/-- Encoding the operands a form reads from a word gives the word with the bits its format does not read set to 0
(R74, R76): one case per format. -/
theorem fields_build (hop : params.opcodeMap f = w.op) : (f.build w).fields = w.canonical f := by
  have hyx0 : 0 = w.yx &&& 0x00 := BitVec.and_zero.symm
  have hll0 : 0 = w.ll &&& 0x00 := BitVec.and_zero.symm
  have hhh0 : 0 = w.hh &&& 0x00 := BitVec.and_zero.symm
  have hlow : lowByte w.hhll = w.ll &&& 0xFF := (lowByte_hhll w).trans (and_mask_whole w.ll).symm
  have hhigh : highByte w.hhll = w.hh &&& 0xFF := (highByte_hhll w).trans (and_mask_whole w.hh).symm
  have hxy : pairXY w.x w.y = w.yx &&& 0xFF := (pairXY_regs w).trans (and_mask_whole w.yx).symm
  cases f
  case nop | cls | vblnk | snd0 | ret | pushall | popall | pushf | popf => exact asm_eq_canonical hop hyx0 hll0 hhh0
  case snd1 | snd2 | snd3 | jmp | call | ldiSp | pal => exact asm_eq_canonical hop hyx0 hlow hhigh
  case spr => exact asm_eq_canonical hop hyx0 (and_mask_whole w.ll).symm (and_mask_whole w.hh).symm
  case bgc => exact asm_eq_canonical hop hyx0 (joinNibbles_n4 w) hhh0
  case flip => exact asm_eq_canonical hop hyx0 hll0 (flipByte_h_v w)
  case sng => exact asm_eq_canonical hop (and_mask_whole w.yx).symm hlow hhigh
  case jcc | callcc => exact asm_eq_canonical hop (joinNibbles_condCode_cond w) hlow hhigh
  case jmpR | callR | push | pop | palR | notR | negR => exact asm_eq_canonical hop (pairXY_x_zero w) hll0 hhh0
  case shl | shr => exact asm_eq_canonical hop (pairXY_x_zero w) (joinNibbles_n4 w) hhh0
  case ldmRr | stmRr | add | sub | cmp | and | tst | or | xor | mul | div | mod | notRr | negRr =>
    exact asm_eq_canonical hop hxy hll0 hhh0
  case drw | jme => exact asm_eq_canonical hop hxy hlow hhigh
  case drwR | add3 | sub3 | and3 | or3 | xor3 | mul3 | div3 | mod3 =>
    exact asm_eq_canonical hop hxy (joinNibbles_z w) hhh0
  case rnd | snp | ldi | ldm | stm | addi | subi | cmpi | andi | tsti | ori | xori | muli | divi | modi | noti | negi =>
    exact asm_eq_canonical hop (pairXY_x_zero w) hlow hhigh

/-- A form's operands come from the bits its format reads (R74). -/
theorem build_canonical (hop : params.opcodeMap f = w.op) : f.build (w.canonical f) = f.build w := by
  have h := build_fields (f.build w)
  rwa [form_build, fields_build hop] at h

/-- An assembler writes the unread bits 0 (R76). -/
theorem canonical_fields (i : Instr) : i.fields.canonical i.form = i.fields := by
  rw [← fields_build (fields_op i).symm, build_fields]

/-! ## What the decoder answers -/

theorem decodeFields_of_formOf (h : formOf w.op = some f) : decodeFields w = .ok (f.build w) := by
  rw [decodeFields, h]

theorem decodeFields_ok {i : Instr} (h : decodeFields w = .ok i) : ∃ f, formOf w.op = some f ∧ i = f.build w := by
  unfold decodeFields at h
  split at h
  · next f hf => exact ⟨f, hf, (Except.ok.inj h).symm⟩
  · cases h

theorem decode_of_decodeFields {i : Instr} (h : decodeFields w = .ok i) (rest : List Byte) :
    decode (w.op :: w.yx :: w.ll :: w.hh :: rest) = .ok (i, rest) := by
  have h' : decodeFields ⟨w.op, w.yx, w.ll, w.hh⟩ = .ok i := h
  rw [decode, h']

/-! ## The opcode bytes -/

/-- Two forms with one opcode byte are the form that byte selects. -/
theorem opcodeMap_injective {f g : Form} (h : params.opcodeMap f = params.opcodeMap g) : f = g :=
  Option.some.inj (by rw [← formOf_opcode f, h, formOf_opcode g])

theorem invalidOpcodeRange_opcode (f : Form) : invalidOpcodeRange (params.opcodeMap f) = false := by cases f <;> rfl

/-- Between the ranges of R80 every byte is looked up. -/
theorem formOf_isSome_of_valid (op : Byte) : invalidOpcodeRange op = false → (formOf op).isSome = true := by
  revert op; decide

/-- The bytes without a form are those of R80. -/
theorem formOf_eq_none_iff (op : Byte) : formOf op = none ↔ invalidOpcodeRange op = true := by
  cases hf : formOf op with
  | none =>
    have hinvalid : invalidOpcodeRange op ≠ false := fun h => by simpa [hf] using formOf_isSome_of_valid op h
    simpa using hinvalid
  | some f => simp [← opcode_of_formOf hf, invalidOpcodeRange_opcode]

/-! ## The obligations -/

/-- Settles O1: the four bytes are the instruction's fields, which decode to it. -/
theorem decodeOfEncodeIsTheInstruction : Obligations.DecodeOfEncodeIsTheInstruction :=
  fun i rest => decode_of_decodeFields (decodeFields_fields i) rest

/-- Settles O2: the instruction is built by the form its opcode byte selects, and `fields_build` encodes it. -/
theorem encodeOfDecodeIsTheCanonicalWord : Obligations.EncodeOfDecodeIsTheCanonicalWord := by
  intro w i h
  obtain ⟨f, hf, rfl⟩ := decodeFields_ok h
  rw [form_build, fields_build (opcode_of_formOf hf)]

/-- Settles O3: the canonical word has the opcode byte and every bit the operands come from. -/
theorem unreadBitsAreIgnored : Obligations.UnreadBitsAreIgnored := by
  refine ⟨fun w w' f hf hc => ?_, canonical_fields⟩
  have hop : (w.canonical f).op = (w'.canonical f).op := congrArg Fields.op hc
  have hf' : formOf w'.op = some f := (congrArg formOf hop).symm.trans hf
  rw [decodeFields_of_formOf hf, decodeFields_of_formOf hf', ← build_canonical (opcode_of_formOf hf), hc,
    build_canonical (opcode_of_formOf hf')]

/-- Settles O4: the lookup of a byte undoes the opcode map, and fails on the ranges of R80 alone. -/
theorem invalidOpcodesAreTheListedRanges : Obligations.InvalidOpcodesAreTheListedRanges :=
  ⟨rfl, fun _ _ => opcodeMap_injective, formOf_eq_none_iff, rfl⟩

/-- Settles O5: the decoder is run on each word. -/
theorem sampleWordsDecode : Obligations.SampleWordsDecode := by
  unfold Obligations.SampleWordsDecode
  decide

end Sys2Proof.Machine

/-! # The conditions: what a compare makes them mean (40_conditions.md)

`sub16_effect` gives the flags of a difference in exact arithmetic. From it the three comparisons follow, each as the
value of a flag or of a pair of flags: equal (`Z`), unsigned at least (`C`) and signed below (`O` differs from `N`).
The ten conditions are combinations of these. -/

namespace Sys2Proof.Machine

variable {s : State} {a b r : Word} {f : Flags} {c : Cond}

/-! ## A conditional transfer whose condition has a value -/

theorem whenCond_of_true (h : evalCond c s.flags = some true) (go : State) : whenCond c s go = .next go := by
  rw [whenCond, h]

theorem whenCond_of_false (h : evalCond c s.flags = some false) (go : State) : whenCond c s go = .next s.advance := by
  rw [whenCond, h]

/-! ## The difference and its flags -/

theorem sub16_toNat (a b : Word) (f : Flags) : (sub16 a b f).1.toNat = (65536 + a.toNat - b.toNat) % 65536 := by
  rw [sub16_value, BitVec.toNat_sub]
  have hb := b.isLt
  omega

theorem sub16_overflow_iff_msb (a b : Word) (f : Flags) :
    (sub16 a b f).2.o = true ↔ a.msb ≠ b.msb ∧ (sub16 a b f).1.msb ≠ a.msb := by
  simp [(sub16_flags_from_value a b f).2.2]

/-- The sign rule of `sub16` is overflow of the exact signed difference (R151). -/
theorem sub16_overflow_iff_signed (a b : Word) (f : Flags) :
    (sub16 a b f).2.o = true ↔ signed16 a - signed16 b < -32768 ∨ 32767 < signed16 a - signed16 b := by
  have ha := a.isLt
  have hb := b.isLt
  have hr := sub16_toNat a b f
  simp only [sub16_overflow_iff_msb, BitVec.msb_eq_decide, ne_eq, decide_eq_decide, signed16]
  split <;> split <;> omega

/-- The difference and all four flags of `sub16` (R151). -/
theorem sub16_effect (a b : Word) (f : Flags) : SubEffect a b (sub16 a b f).1 (sub16 a b f).2 := by
  obtain ⟨hz, hn, -⟩ := sub16_flags_from_value a b f
  refine ⟨sub16_toNat a b f, sub16_carry a b f, sub16_overflow_iff_msb a b f, sub16_overflow_iff_signed a b f, ?_, ?_⟩
  · rw [hz, isZero_iff, ← BitVec.toNat_inj]
    rfl
  · rw [hn, msb_iff]

/-! ## The three comparisons -/

theorem signed16_inj : signed16 a = signed16 b ↔ a = b := by
  have ha := a.isLt
  have hb := b.isLt
  rw [← BitVec.toNat_inj, signed16, signed16]
  split <;> split <;> omega

theorem SubEffect.zero (h : SubEffect a b r f) : f.z = decide (a = b) := by
  obtain ⟨hr, -, -, -, hz, -⟩ := h
  have ha := a.isLt
  have hb := b.isLt
  rw [Bool.eq_iff_iff, hz, decide_eq_true_iff, ← BitVec.toNat_inj]
  omega

theorem SubEffect.carry (h : SubEffect a b r f) : f.c = decide (b.toNat ≤ a.toNat) := by
  obtain ⟨-, hc, -⟩ := h
  rw [Bool.eq_iff_iff, hc, decide_eq_true_iff]

/-- The sign of the exact difference is the sign of the result, corrected by overflow. -/
theorem SubEffect.overflow_ne_negative (h : SubEffect a b r f) : (f.o != f.n) = decide (signed16 a < signed16 b) := by
  obtain ⟨hr, -, -, ho, -, hn⟩ := h
  have ha := a.isLt
  have hb := b.isLt
  rw [Bool.eq_iff_iff, bne_iff_ne, ne_eq, Bool.eq_iff_iff, ho, hn, decide_eq_true_iff, signed16, signed16]
  split <;> split <;> omega

theorem SubEffect.overflow_eq_negative (h : SubEffect a b r f) : (f.o == f.n) = decide (signed16 b ≤ signed16 a) := by
  rw [← Bool.not_inj_iff, ← decide_not, decide_eq_decide.mpr not_le]
  exact h.overflow_ne_negative

/-! ## What the conditions mean after a compare -/

theorem SubEffect.evalCond_equal (h : SubEffect a b r f) :
    evalCond .z f = some (decide (a = b)) ∧ evalCond .nz f = some (decide (a ≠ b)) := by
  simp only [evalCond, h.zero, ne_eq, decide_not, and_self]

/-- The unsigned conditions: `C` is "at least", and `Z` splits off equality (R101). -/
theorem SubEffect.evalCond_unsigned (h : SubEffect a b r f) :
    evalCond .a f = some (decide (b.toNat < a.toNat)) ∧ evalCond .ae f = some (decide (b.toNat ≤ a.toNat)) ∧
      evalCond .b f = some (decide (a.toNat < b.toNat)) ∧ evalCond .be f = some (decide (a.toNat ≤ b.toNat)) := by
  have hz : f.z = decide (a.toNat = b.toNat) := by rw [h.zero, decide_eq_decide, BitVec.toNat_inj]
  refine ⟨?_, ?_, ?_, ?_⟩ <;>
    simp only [evalCond, h.carry, hz, ← decide_not, ← Bool.decide_and, ← Bool.decide_or, Option.some.injEq,
      decide_eq_decide]
  all_goals omega

/-- The signed conditions: `O` differs from `N` is "below", and `Z` splits off equality (R102). -/
theorem SubEffect.evalCond_signed (h : SubEffect a b r f) :
    evalCond .g f = some (decide (signed16 b < signed16 a)) ∧ evalCond .ge f = some (decide (signed16 b ≤ signed16 a)) ∧
      evalCond .l f = some (decide (signed16 a < signed16 b)) ∧
      evalCond .le f = some (decide (signed16 a ≤ signed16 b)) := by
  have hz : f.z = decide (signed16 a = signed16 b) := by rw [h.zero, decide_eq_decide, signed16_inj]
  refine ⟨?_, ?_, ?_, ?_⟩ <;>
    simp only [evalCond, h.overflow_ne_negative, h.overflow_eq_negative, hz, ← decide_not, ← Bool.decide_and,
      ← Bool.decide_or, Option.some.injEq, decide_eq_decide]
  all_goals omega

/-! ## The obligations -/

/-- Settles O29: CMP leaves the flags of the difference, whose conditions are the comparisons. -/
theorem conditionsAfterCompareMeanTheirNames : Obligations.ConditionsAfterCompareMeanTheirNames := by
  intro s t x y h a b
  obtain rfl := Host.Outcome.next.inj h
  have he : SubEffect a b _ _ := sub16_effect a b s.flags
  obtain ⟨hz, hnz⟩ := he.evalCond_equal
  obtain ⟨ha, hae, hb, hbe⟩ := he.evalCond_unsigned
  exact ⟨hz, hnz, ha, hae, hb, hbe, he.evalCond_signed⟩

/-- Settles O41: codes 0 and 1 are Z and NZ, which read the zero flag. -/
theorem zeroClearSeparatesCodesZeroAndOne : Obligations.ZeroClearSeparatesCodesZeroAndOne := by
  intro s target hz
  have hzero : evalCond (condOf 0) s.flags = some false := congrArg some hz
  have hone : evalCond (condOf 1) s.flags = some true := congrArg (fun z => some (!z)) hz
  exact ⟨hzero, hone, whenCond_of_false hzero _, whenCond_of_true hone _⟩

end Sys2Proof.Machine

/-! # Data movement: loads and stores (41_data_movement.md)

A load is one register write and a store one 16-bit memory write, each followed by the step to the next instruction.
The effect of each of the two is said once, for every value and every address; the instructions supply theirs. -/

namespace Sys2Proof.Machine

/-! ## The two shapes -/

/-- A register write and the advance: what LDI RX and both LDM forms do, whatever the value (R120). -/
theorem load_effect (s : State) (x : RegIdx) (v : Word) :
    (s.setReg x v).advance.reg x = v ∧ (s.setReg x v).advance.flags = s.flags ∧
      AluFrame (some x) s (s.setReg x v).advance := by
  have hregs : RegsKeptBut [x] s (s.setReg x v).advance := fun _ hr =>
    State.reg_setReg_other s (List.ne_of_not_mem_cons hr) v
  exact ⟨State.reg_setReg_same s x v, rfl, hregs, memKeptBut_of_mem_eq rfl, rfl, rfl, ⟨rfl, rfl, rfl, rfl⟩⟩

/-- A 16-bit write changes the two bytes at its address and nothing else (R56, R59). -/
theorem storeFrame_write16 (s : State) (a v : Word) : StoreFrame (storedAt a) s (s.write16 a v) :=
  ⟨fun _ _ => rfl, memKeptBut_write16 s a v, rfl, ⟨rfl, rfl, rfl, rfl⟩⟩

/-- A 16-bit write and the advance: what both STM forms do, whatever the address and the word (R120). -/
theorem store_effect (s : State) (a v : Word) :
    HoldsWord (s.write16 a v).advance a v ∧ StoreFrame (storedAt a) s (s.write16 a v).advance ∧
      (s.write16 a v).advance.sp = s.sp ∧ (s.write16 a v).advance.pc = s.pc + 4 :=
  ⟨holdsWord_write16 s a v, storeFrame_write16 s a v, rfl, rfl⟩

/-! ## The obligations -/

/-- Settles O37: the value of each load is computed in the state before the register write, so `x = y` is no special
case (R124). -/
theorem loadsWriteOneRegister : Obligations.LoadsWriteOneRegister := by
  intro s x y imm
  refine ⟨⟨_, exec_ldi s x imm, load_effect s x imm⟩, ⟨_, exec_ldiSp s imm, rfl, rfl, ?_⟩,
    ⟨_, exec_ldm s x imm, ?_⟩, ⟨_, exec_ldmRr s x y, ?_⟩⟩
  · exact ⟨fun _ _ => rfl, memKeptBut_of_mem_eq rfl, rfl, ⟨rfl, rfl, rfl, rfl⟩⟩
  · rw [wordAt_eq_read16]; exact load_effect s x (s.read16 imm)
  · rw [wordAt_eq_read16]; exact load_effect s x (s.read16 (s.reg y))

/-- Settles O38: one store at the address the operand gives. -/
theorem storesWriteOneWord : Obligations.StoresWriteOneWord := fun s x y imm =>
  ⟨⟨_, exec_stm s x imm, store_effect s imm (s.reg x)⟩,
    ⟨_, exec_stmRr s x y, store_effect s (s.reg y) (s.reg x)⟩⟩

end Sys2Proof.Machine

/-! # Control flow: jumps, calls and the return (42_control_flow.md)

A transfer that is not a call changes `pc` alone, whether it jumps or advances (`onlyPc_jump`, `onlyPc_advance`). Every
call that is taken leaves the state `callTo` gives, so what a call does, and what RET does after it, is said once for
the three call forms. -/

namespace Sys2Proof.Machine

variable {s t u : State} {c : Cond}

/-! ## Jumps -/

theorem onlyPc_jump (s : State) (target : Word) : OnlyPc s (s.jump target) :=
  ⟨fun _ _ => rfl, memKeptBut_of_mem_eq rfl, rfl, rfl, ⟨rfl, rfl, rfl, rfl⟩⟩

theorem onlyPc_advance (s : State) : OnlyPc s s.advance := onlyPc_jump s (s.pc + 4)

/-- Jcc on a condition with the value `b`, where `holds` is any way to say that `b` is true (R132). -/
theorem jcc_effect {b : Bool} {holds : Prop} (hc : evalCond c s.flags = some b) (hb : b = true ↔ holds)
    (target : Word) : ∃ t, exec (.jcc c target) s = .next t ∧ OnlyPc s t ∧
      (holds → t.pc = target) ∧ (¬ holds → t.pc = s.pc + 4) := by
  cases b with
  | true =>
    exact ⟨_, whenCond_of_true hc _, onlyPc_jump s target, fun _ => rfl, fun hn => absurd (hb.mp rfl) hn⟩
  | false =>
    exact ⟨_, whenCond_of_false hc _, onlyPc_advance s, fun hh => absurd (hb.mpr hh) Bool.false_ne_true, fun _ => rfl⟩

/-! ## The stack slot of a call -/

/-- The word `pop16` reads is the one `push16` stored, also where `sp` wraps between the two (R231). -/
@[simp] theorem State.popped_push16 (s : State) (v : Word) : (s.push16 v).popped = v := by
  rw [State.popped, State.sp_push16, BitVec.add_sub_cancel, State.read16_push16]

@[simp] theorem State.popped_callTo (s : State) (target : Word) : (s.callTo target).popped = s.pc + 4 :=
  State.popped_push16 s (s.pc + 4)

/-! ## Calls and the return -/

/-- The return address on the stack and the jump: what a call that is taken does (R134). -/
theorem callTo_effect (s : State) (target : Word) :
    HoldsWord (s.callTo target) s.sp (s.pc + 4) ∧ StoreFrame (storedAt s.sp) s (s.callTo target) ∧
      (s.callTo target).sp = s.sp + 2 ∧ (s.callTo target).pc = target :=
  ⟨holdsWord_write16 s s.sp (s.pc + 4), storeFrame_write16 s s.sp (s.pc + 4), rfl, rfl⟩

/-- RET pops `pc` and writes nothing else (R135). -/
theorem ret_effect (h : exec .ret s = .next t) : t.pc = s.popped ∧ t.sp = s.sp - 2 ∧ StoreFrame [] s t := by
  obtain rfl := Host.Outcome.next.inj h
  exact ⟨rfl, rfl, fun _ _ => rfl, memKeptBut_of_mem_eq rfl, rfl, ⟨rfl, rfl, rfl, rfl⟩⟩

/-- A RET at the target of a call undoes it, but for the stack slot (R139). -/
theorem ret_after_callTo {target : Word} (h : exec .ret (s.callTo target) = .next u) :
    u.pc = s.pc + 4 ∧ u.sp = s.sp ∧ StoreFrame (storedAt s.sp) s u := by
  obtain ⟨hpc, hsp, hregs, hmem, hflags, hports⟩ := ret_effect h
  obtain ⟨-, ⟨-, hstored, -, -⟩, -, -⟩ := callTo_effect s target
  refine ⟨hpc.trans (State.popped_callTo s target), hsp.trans (BitVec.add_sub_cancel s.sp 2), hregs, ?_, hflags,
    hports⟩
  exact fun a ha => (hmem a List.not_mem_nil).trans (hstored a ha)

/-! ## The obligations -/

/-- Settles O39: each jump jumps, and JME advances where the registers differ. -/
theorem jumpsChangeOnlyPc : Obligations.JumpsChangeOnlyPc := by
  intro s x y target
  refine ⟨⟨_, exec_jmp s target, rfl, onlyPc_jump s target⟩, ⟨_, exec_jmpR s x, rfl, onlyPc_jump s (s.reg x)⟩,
    _, exec_jme s x y target, ?_⟩
  by_cases hxy : s.reg x = s.reg y
  · rw [if_pos hxy]
    exact ⟨onlyPc_jump s target, fun _ => rfl, fun hne => absurd hxy hne⟩
  · rw [if_neg hxy]
    exact ⟨onlyPc_advance s, fun heq => absurd heq hxy, fun _ => rfl⟩

/-- Settles O40: each named condition has a value, which is true where the formula of R101 holds. -/
theorem conditionalJumpFollowsTheTable : Obligations.ConditionalJumpFollowsTheTable := by
  intro s c target hnamed
  cases c
  case reserved => exact absurd rfl hnamed
  all_goals exact jcc_effect rfl (by simp) target

/-- Settles O43: the three call forms reach `callTo`, CALLcc where its condition holds. -/
theorem callsPushTheReturnAddress : Obligations.CallsPushTheReturnAddress := fun s x _ target =>
  ⟨⟨_, exec_call s target, callTo_effect s target⟩, ⟨_, exec_callR s x, callTo_effect s (s.reg x)⟩,
    fun hc => ⟨_, whenCond_of_true hc _, callTo_effect s target⟩,
    fun hc => ⟨_, whenCond_of_false hc _, onlyPc_advance s, rfl⟩⟩

/-- Settles O45: whichever form made the call, it left `callTo` of its target. -/
theorem callThenReturnComesBack : Obligations.CallThenReturnComesBack := by
  intro s t u i hi hcall hret
  obtain ⟨target, ht⟩ : ∃ target, exec i s = .next (s.callTo target) := by
    obtain ⟨target, rfl⟩ | ⟨x, rfl⟩ | ⟨c, target, rfl, hc⟩ := hi
    · exact ⟨target, exec_call s target⟩
    · exact ⟨s.reg x, exec_callR s x⟩
    · exact ⟨target, whenCond_of_true hc _⟩
  obtain rfl := Host.Outcome.next.inj (ht.symm.trans hcall)
  obtain ⟨hpc, hsp, hregs, hmem, hflags, -⟩ := ret_after_callTo hret
  exact ⟨hpc, hsp, hflags, hregs, hmem⟩

/-- Settles O44: the popped word is the one at `sp - 2`. -/
theorem returnPopsThePc : Obligations.ReturnPopsThePc := by
  intro s
  obtain ⟨hpc, hsp, hframe⟩ := ret_effect (exec_ret s)
  exact ⟨_, exec_ret s, hpc.trans (wordAt_eq_read16 s (s.sp - 2)).symm, hsp, hframe⟩

end Sys2Proof.Machine

/-! # Arithmetic: ADD, SUB, CMP, MUL, DIV and MOD (43_arithmetic.md)

Each ALU function has its effect in exact arithmetic, said once for all operands (`add16_effect` to `mod16_effect`).
An instruction that writes an ALU result hands that effect on to its destination register and the flags
(`aluWrite_completes`, `aluDivide_completes`), so the forms of a family differ in their operands only. -/

namespace Sys2Proof.Machine

variable {s : State} {a b r : Word} {f old : Flags} {i : Instr}

/-! ## The shapes -/

/-- An ALU result `res` is what the destination and the flags hold after the step, and nothing else changes. -/
theorem aluWrite_completes {d : RegIdx} {res : Word × Flags} (P : Word → Flags → Prop)
    (hi : exec i s = .next (s.aluWrite d res)) (hres : P res.1 res.2) :
    ∃ t, exec i s = .next t ∧ P (t.reg d) t.flags ∧ AluFrame (some d) s t := by
  refine ⟨_, hi, ?_, aluFrame_aluWrite d res⟩
  rwa [State.reg_aluWrite_same]

theorem aluDivide_of_some {op : Word → Word → Flags → Option (Word × Flags)} {res : Word × Flags} (d x : RegIdx)
    (b : Source) (h : op (s.reg x) (b.value s) s.flags = some res) :
    aluDivide op d x b s = .next (s.aluWrite d res) := by
  rw [aluDivide, h]

/-- The same for a division that has a result (R153, R154). -/
theorem aluDivide_completes {op : Word → Word → Flags → Option (Word × Flags)} {d x : RegIdx} {b : Source}
    (P : Word → Flags → Prop) (hi : exec i s = aluDivide op d x b s)
    (hop : ∃ res, op (s.reg x) (b.value s) s.flags = some res ∧ P res.1 res.2) :
    ∃ t, exec i s = .next t ∧ P (t.reg d) t.flags ∧ AluFrame (some d) s t := by
  obtain ⟨res, hsome, hres⟩ := hop
  exact aluWrite_completes P (hi.trans (aluDivide_of_some d x b hsome)) hres

/-! ## Zero and sign of a result -/

theorem isZero_iff_toNat (r : Word) : (r == 0) = true ↔ r.toNat = 0 :=
  (isZero_iff r).trans (BitVec.toNat_inj (y := 0)).symm

theorem isNonzero_iff_toNat (r : Word) : (r != 0) = true ↔ r.toNat ≠ 0 := by
  rw [bne, Bool.not_eq_true', ← Bool.not_eq_true, isZero_iff_toNat]

theorem zeroNegativeOf_of_eq (hz : f.z = (r == 0)) (hn : f.n = r.msb) : ZeroNegativeOf r f := by
  rw [ZeroNegativeOf, hz, hn]
  exact ⟨isZero_iff_toNat r, msb_iff r⟩

/-! ## The sum -/

theorem add16_toNat (a b : Word) (f : Flags) : (add16 a b f).1.toNat = (a.toNat + b.toNat) % 65536 := by
  rw [add16_value, BitVec.toNat_add]

theorem add16_overflow_iff_msb (a b : Word) (f : Flags) :
    (add16 a b f).2.o = true ↔ a.msb = b.msb ∧ (add16 a b f).1.msb ≠ a.msb := by
  simp [(add16_flags_from_value a b f).2.2]

/-- The sign rule of `add16` is overflow of the exact signed sum (R150). -/
theorem add16_overflow_iff_signed (a b : Word) (f : Flags) :
    (add16 a b f).2.o = true ↔ signed16 a + signed16 b < -32768 ∨ 32767 < signed16 a + signed16 b := by
  have ha := a.isLt
  have hb := b.isLt
  have hr := add16_toNat a b f
  simp only [add16_overflow_iff_msb, BitVec.msb_eq_decide, ne_eq, decide_eq_decide, signed16]
  split <;> split <;> omega

/-- The sum and all four flags of `add16` (R150). -/
theorem add16_effect (a b : Word) (f : Flags) : AddEffect a b (add16 a b f).1 (add16 a b f).2 :=
  ⟨add16_toNat a b f, add16_carry a b f, add16_overflow_iff_msb a b f, add16_overflow_iff_signed a b f,
    zeroNegativeOf_of_eq rfl rfl⟩

/-! ## The product -/

theorem mul16_toNat (a b : Word) (f : Flags) : (mul16 a b f).1.toNat = a.toNat * b.toNat % 65536 := by
  rw [mul16_value, BitVec.toNat_mul]

theorem mul_upper_toNat (a b : Word) :
    (BitVec.ofNat 16 (a.toNat * b.toNat / 65536)).toNat = a.toNat * b.toNat / 65536 :=
  (BitVec.toNat_ofNat _ 16).trans (Nat.mod_eq_of_lt (mul_upper_lt a b))

theorem mul16_carry (a b : Word) (f : Flags) : (mul16 a b f).2.c = true ↔ 65536 ≤ a.toNat * b.toNat := by
  refine (isNonzero_iff_toNat _).trans ?_
  rw [mul_upper_toNat]
  omega

/-- The sign of the upper half is bit 31 of the product (R152). -/
theorem mul16_negative (a b : Word) (f : Flags) : (mul16 a b f).2.n = true ↔ 2 ^ 31 ≤ a.toNat * b.toNat := by
  refine (msb_iff _).trans ?_
  rw [mul_upper_toNat]
  omega

/-- The product and the flags of `mul16` (R152). -/
theorem mul16_effect (a b : Word) (f : Flags) : MulEffect a b (mul16 a b f).1 f (mul16 a b f).2 :=
  ⟨mul16_toNat a b f, mul16_carry a b f, isZero_iff_toNat _, mul16_negative a b f, rfl⟩

/-! ## Quotient and remainder -/

/-- "Inexact": the remainder is not 0 (R153, R154). -/
theorem quotRem_inexact (a b : Word) : ((quotRem a b).2 != 0) = true ↔ ¬ b.toNat ∣ a.toNat := by
  rw [isNonzero_iff_toNat, (quotRem_toNat a b).2, Nat.dvd_iff_mod_eq_zero]

/-- `div16` has a result for a divisor that is not 0: the quotient and its flags (R153). -/
theorem div16_effect (a : Word) (f : Flags) (hb : b ≠ 0) :
    ∃ res, div16 a b f = some res ∧ DivEffect a b res.1 f res.2 :=
  ⟨_, div16_nonzero a b f hb, (quotRem_toNat a b).1, quotRem_inexact a b, zeroNegativeOf_of_eq rfl rfl, rfl⟩

/-- `mod16` has a result for a divisor that is not 0: the remainder and its flags (R154). -/
theorem mod16_effect (a : Word) (f : Flags) (hb : b ≠ 0) :
    ∃ res, mod16 a b f = some res ∧ ModEffect a b res.1 f res.2 :=
  ⟨_, mod16_nonzero a b f hb, (quotRem_toNat a b).2, quotRem_inexact a b, zeroNegativeOf_of_eq rfl rfl, rfl⟩

/-- The remainder is 0 exactly when the division is exact, so `C` is the complement of `Z` (R154). -/
theorem ModEffect.carry_eq_not_zero (h : ModEffect a b r old f) : f.c = !f.z := by
  obtain ⟨hr, hc, ⟨hz, -⟩, -⟩ := h
  rw [Bool.eq_iff_iff, hc, Bool.not_eq_true', ← Bool.not_eq_true, hz, hr, Nat.dvd_iff_mod_eq_zero]

/-- A MOD form whose divisor is not 0, with `C` and `Z` complementary (R154). -/
theorem aluModulo_completes {d x : RegIdx} {b : Source} (hi : exec i s = aluDivide mod16 d x b s)
    (hb : b.value s ≠ 0) :
    ∃ t, exec i s = .next t ∧ ModEffect (s.reg x) (b.value s) (t.reg d) s.flags t.flags ∧
      t.flags.c = !t.flags.z ∧ AluFrame (some d) s t := by
  obtain ⟨t, ht, he, hframe⟩ :=
    aluDivide_completes (ModEffect (s.reg x) (b.value s) · s.flags ·) hi (mod16_effect _ _ hb)
  exact ⟨t, ht, he, he.carry_eq_not_zero, hframe⟩

/-! ## The obligations -/

/-- Settles O27: the three forms write `add16` of their operands, which are read before the register is written. -/
theorem addFormsAddWithAllFlags : Obligations.AddFormsAddWithAllFlags := fun s x y z imm =>
  ⟨aluWrite_completes (AddEffect (s.reg x) imm) (exec_addi s x imm) (add16_effect _ _ _),
    aluWrite_completes (AddEffect (s.reg x) (s.reg y)) (exec_add s x y) (add16_effect _ _ _),
    aluWrite_completes (AddEffect (s.reg x) (s.reg y)) (exec_add3 s z x y) (add16_effect _ _ _)⟩

/-- Settles O28: three forms write `sub16` of their operands, and the compare forms keep its flags alone. -/
theorem subtractFormsSetNoBorrowCarry : Obligations.SubtractFormsSetNoBorrowCarry := fun s x y z imm =>
  ⟨aluWrite_completes (SubEffect (s.reg x) imm) (exec_subi s x imm) (sub16_effect _ _ _),
    aluWrite_completes (SubEffect (s.reg x) (s.reg y)) (exec_sub s x y) (sub16_effect _ _ _),
    aluWrite_completes (SubEffect (s.reg x) (s.reg y)) (exec_sub3 s z x y) (sub16_effect _ _ _),
    ⟨_, exec_cmpi s x imm, ⟨_, sub16_effect (s.reg x) imm s.flags⟩, aluFrame_aluDiscard _⟩,
    ⟨_, exec_cmp s x y, ⟨_, sub16_effect (s.reg x) (s.reg y) s.flags⟩, aluFrame_aluDiscard _⟩⟩

/-- Settles O30: the three forms write `mul16` of their operands. -/
theorem multiplyFormsKeepTheLowHalf : Obligations.MultiplyFormsKeepTheLowHalf := fun s x y z imm =>
  ⟨aluWrite_completes (MulEffect (s.reg x) imm · s.flags ·) (exec_muli s x imm) (mul16_effect _ _ _),
    aluWrite_completes (MulEffect (s.reg x) (s.reg y) · s.flags ·) (exec_mul s x y) (mul16_effect _ _ _),
    aluWrite_completes (MulEffect (s.reg x) (s.reg y) · s.flags ·) (exec_mul3 s z x y) (mul16_effect _ _ _)⟩

/-- Settles O31: a divisor that is not 0 gives `div16` a result, which the three forms write. -/
theorem divideFormsGiveTheQuotient : Obligations.DivideFormsGiveTheQuotient := fun s x y z imm =>
  ⟨fun hb => aluDivide_completes (DivEffect (s.reg x) imm · s.flags ·) (exec_divi s x imm) (div16_effect _ _ hb),
    fun hb => aluDivide_completes (DivEffect (s.reg x) (s.reg y) · s.flags ·) (exec_div s x y) (div16_effect _ _ hb),
    fun hb => aluDivide_completes (DivEffect (s.reg x) (s.reg y) · s.flags ·) (exec_div3 s z x y)
      (div16_effect _ _ hb)⟩

/-- Settles O32: a divisor that is not 0 gives `mod16` a result, whose `C` and `Z` say the same. -/
theorem moduloFormsGiveTheRemainder : Obligations.ModuloFormsGiveTheRemainder := fun s x y z imm =>
  ⟨aluModulo_completes (exec_modi s x imm), aluModulo_completes (exec_mod s x y),
    aluModulo_completes (exec_mod3 s z x y)⟩

end Sys2Proof.Machine

/-! # Logic: AND, OR, XOR and TST (44_logic.md)

The three logic functions share their flags: `Z` and `N` from the result, `C` and `O` from the old flags (`setZN`). They
differ in the operation on each bit, so one lemma turns a fact about bits into the whole effect
(`logicEffect_setZN`). -/

namespace Sys2Proof.Machine

variable {a b r : Word}

/-! ## The effect of a logic function -/

theorem zeroNegativeOf_setZN (r : Word) (f : Flags) : ZeroNegativeOf r (f.setZN r) :=
  zeroNegativeOf_of_eq (setZN_z f r) (setZN_n f r)

/-- A result that is bitwise `op` has the effect of R190 once `setZN` has made the flags. -/
theorem logicEffect_setZN {op : Bool → Bool → Bool} (f : Flags)
    (hbits : ∀ i, r.getLsbD i = op (a.getLsbD i) (b.getLsbD i)) : LogicEffect op a b r f (f.setZN r) :=
  ⟨fun i _ => hbits i, zeroNegativeOf_setZN r f, setZN_c f r, setZN_o f r⟩

theorem and16_effect (a b : Word) (f : Flags) : LogicEffect and a b (and16 a b f).1 f (and16 a b f).2 :=
  logicEffect_setZN f fun _ => BitVec.getLsbD_and

theorem or16_effect (a b : Word) (f : Flags) : LogicEffect or a b (or16 a b f).1 f (or16 a b f).2 :=
  logicEffect_setZN f fun _ => BitVec.getLsbD_or

theorem xor16_effect (a b : Word) (f : Flags) : LogicEffect xor a b (xor16 a b f).1 f (xor16 a b f).2 :=
  logicEffect_setZN f fun _ => BitVec.getLsbD_xor

/-! ## The obligations -/

/-- Settles O34: nine forms write `and16`, `or16` or `xor16` of their operands, and the test forms keep the flags of
`and16` alone. -/
theorem logicFormsWorkBitByBit : Obligations.LogicFormsWorkBitByBit := fun s x y z imm =>
  ⟨aluWrite_completes (LogicEffect and (s.reg x) imm · s.flags ·) (exec_andi s x imm) (and16_effect _ _ _),
    aluWrite_completes (LogicEffect and (s.reg x) (s.reg y) · s.flags ·) (exec_and s x y) (and16_effect _ _ _),
    aluWrite_completes (LogicEffect and (s.reg x) (s.reg y) · s.flags ·) (exec_and3 s z x y) (and16_effect _ _ _),
    aluWrite_completes (LogicEffect or (s.reg x) imm · s.flags ·) (exec_ori s x imm) (or16_effect _ _ _),
    aluWrite_completes (LogicEffect or (s.reg x) (s.reg y) · s.flags ·) (exec_or s x y) (or16_effect _ _ _),
    aluWrite_completes (LogicEffect or (s.reg x) (s.reg y) · s.flags ·) (exec_or3 s z x y) (or16_effect _ _ _),
    aluWrite_completes (LogicEffect xor (s.reg x) imm · s.flags ·) (exec_xori s x imm) (xor16_effect _ _ _),
    aluWrite_completes (LogicEffect xor (s.reg x) (s.reg y) · s.flags ·) (exec_xor s x y) (xor16_effect _ _ _),
    aluWrite_completes (LogicEffect xor (s.reg x) (s.reg y) · s.flags ·) (exec_xor3 s z x y) (xor16_effect _ _ _),
    ⟨_, exec_tsti s x imm, ⟨_, and16_effect (s.reg x) imm s.flags⟩, aluFrame_aluDiscard _⟩,
    ⟨_, exec_tst s x y, ⟨_, and16_effect (s.reg x) (s.reg y) s.flags⟩, aluFrame_aluDiscard _⟩⟩

end Sys2Proof.Machine

/-! # Shifts and the unary forms: SHL, SHR, NOT and NEG (45_shift_unary.md)

The four functions share their flags with the logic forms (`setZN`), so the effect of each is the exact value of its
result (`unaryEffect_setZN`). -/

namespace Sys2Proof.Machine

/-! ## The values -/

/-- A left shift multiplies by the power of two, and the bits shifted out are lost (R211). -/
theorem shl16_toNat (a : Word) (n : Nibble) (f : Flags) :
    (shl16 a n f).1.toNat = a.toNat * 2 ^ n.toNat % 65536 := by
  rw [shl16, BitVec.toNat_shiftLeft, Nat.shiftLeft_eq]

/-- A right shift is the unsigned quotient by the power of two (R212). -/
theorem shr16_toNat (a : Word) (n : Nibble) (f : Flags) : (shr16 a n f).1.toNat = a.toNat / 2 ^ n.toNat := by
  rw [shr16, BitVec.toNat_ushiftRight, Nat.shiftRight_eq_div_pow]

/-- The exclusive or with all ones is the complement (R213). -/
theorem not16_toNat (v : Word) (f : Flags) : (not16 v f).1.toNat = 65535 - v.toNat := by
  have hcomplement : v ^^^ 0xFFFF = ~~~v := BitVec.xor_allOnes
  rw [not16, hcomplement, BitVec.toNat_not]

theorem neg16_toNat (v : Word) (f : Flags) : (neg16 v f).1.toNat = (65536 - v.toNat) % 65536 :=
  BitVec.toNat_sub 0 v

/-! ## The effects -/

/-- A result of a known value has the effect of R210 and R213 once `setZN` has made the flags. -/
theorem unaryEffect_setZN {value : Nat} {r : Word} (f : Flags) (hr : r.toNat = value) :
    UnaryEffect value r f (f.setZN r) :=
  ⟨hr, zeroNegativeOf_setZN r f, setZN_c f r, setZN_o f r⟩

theorem shl16_effect (a : Word) (n : Nibble) (f : Flags) :
    UnaryEffect (a.toNat * 2 ^ n.toNat % 65536) (shl16 a n f).1 f (shl16 a n f).2 :=
  unaryEffect_setZN f (shl16_toNat a n f)

theorem shr16_effect (a : Word) (n : Nibble) (f : Flags) :
    UnaryEffect (a.toNat / 2 ^ n.toNat) (shr16 a n f).1 f (shr16 a n f).2 :=
  unaryEffect_setZN f (shr16_toNat a n f)

theorem not16_effect (v : Word) (f : Flags) : UnaryEffect (65535 - v.toNat) (not16 v f).1 f (not16 v f).2 :=
  unaryEffect_setZN f (not16_toNat v f)

theorem neg16_effect (v : Word) (f : Flags) :
    UnaryEffect ((65536 - v.toNat) % 65536) (neg16 v f).1 f (neg16 v f).2 :=
  unaryEffect_setZN f (neg16_toNat v f)

/-! ## The obligations -/

/-- Settles O35: both forms write the shifted register, for a count of 0 as for any other. -/
theorem shiftsAreLogical : Obligations.ShiftsAreLogical := fun s x n =>
  ⟨aluWrite_completes (UnaryEffect _ · s.flags ·) (exec_shl s x n) (shl16_effect _ _ _),
    aluWrite_completes (UnaryEffect _ · s.flags ·) (exec_shr s x n) (shr16_effect _ _ _)⟩

/-- Settles O36: the three shapes write `not16` or `neg16` of the immediate, of `RX` or of `RY`. -/
theorem unaryFormsInvertAndNegate : Obligations.UnaryFormsInvertAndNegate := fun s x y imm =>
  ⟨aluWrite_completes (UnaryEffect _ · s.flags ·) (exec_noti s x imm) (not16_effect _ _),
    aluWrite_completes (UnaryEffect _ · s.flags ·) (exec_notR s x) (not16_effect _ _),
    aluWrite_completes (UnaryEffect _ · s.flags ·) (exec_notRr s x y) (not16_effect _ _),
    aluWrite_completes (UnaryEffect _ · s.flags ·) (exec_negi s x imm) (neg16_effect _ _),
    aluWrite_completes (UnaryEffect _ · s.flags ·) (exec_negR s x) (neg16_effect _ _),
    aluWrite_completes (UnaryEffect _ · s.flags ·) (exec_negRr s x y) (neg16_effect _ _)⟩

end Sys2Proof.Machine

/-! # The stack: push and pop, the block forms and the packed flags (46_stack.md)

What PUSHALL, POPALL, PUSHF and POPF do is said once each, for every `sp` (`pushall_effect` to `popf_effect`). The two
round trips then need no more than that the pop reads back what the push stored: a slot is read by its bytes
(`read16_slotOf_congr`), and unpacking undoes packing whatever the slot's high byte is (`unpackFlags_packFlags`). -/

namespace Sys2Proof.Machine

variable {s t : State}

/-! ## Single words -/

/-- The bytes of a word that is read are the word's low and high part (R55). -/
theorem holdsWord_read16 (s : State) (a : Word) : HoldsWord s a (s.read16 a) :=
  ⟨by rw [← lowByte_toNat, State.read16_eq, lowByte_joinBytes],
    by rw [← highByte_toNat, State.read16_eq, highByte_joinBytes]⟩

/-! ## Blocks of registers -/

/-- PUSHALL leaves each register's word in its slot and writes nothing outside the block (R234). -/
theorem pushall_effect (h : exec .pushall s = .next t) :
    (∀ i : RegIdx, t.read16 (slotOf s.sp i) = s.reg i) ∧ StoreFrame (savedBlock s.sp) s t ∧
      t.sp = s.sp + 32 ∧ t.pc = s.pc + 4 := by
  have hregs : RegsKeptBut [] s t := (exec_frame h).regs
  have hmem : MemKeptBut (savedBlock s.sp) s t := exec_memKeptBut h
  obtain rfl := Host.Outcome.next.inj h
  refine ⟨fun i => ?_, ⟨hregs, hmem, by simp [PortsQuiet]⟩, by simp, by simp⟩
  rw [State.read16_advance, State.read16_setSp, State.read16_storeRegs s s.sp nodup_allRegs (mem_allRegs i)]

/-- POPALL loads each register from its slot in the block it uncovers (R235). -/
theorem popall_effect (h : exec .popall s = .next t) :
    (∀ i : RegIdx, t.reg i = s.read16 (slotOf (s.sp - 32) i)) ∧ MemKeptBut [] s t ∧ t.sp = s.sp - 32 ∧
      t.pc = s.pc + 4 ∧ t.flags = s.flags ∧ PortsQuiet s t := by
  have hmem : MemKeptBut [] s t := exec_memKeptBut h
  obtain rfl := Host.Outcome.next.inj h
  refine ⟨fun i => ?_, hmem, by simp [PortsQuiet]⟩
  rw [State.reg_advance, State.reg_loadRegs, if_pos (mem_allRegs i), State.read16_setSp]

/-- The words in the slots depend on the 32 bytes of the block only. -/
theorem read16_slotOf_congr {base : Word} (h : ∀ a ∈ savedBlock base, t.read8 a = s.read8 a) (i : RegIdx) :
    t.read16 (slotOf base i) = s.read16 (slotOf base i) := by
  obtain ⟨hlow, hhigh⟩ := slotOf_mem_savedBlock base i
  rw [State.read16_eq, State.read16_eq, h _ hlow, h _ hhigh]

/-! ## The packed flags -/

/-- The packed byte, bit by bit (R33). -/
theorem packFlags_toNat (f : Flags) :
    (packFlags f).toNat = 128 * f.c.toNat + 64 * f.o.toNat + 2 * f.n.toNat + f.z.toNat := by
  obtain ⟨c, z, o, n⟩ := f
  revert c z o n
  decide

/-- The flags of a word come from four bits of its low byte (R239). -/
theorem unpackFlags_joinBytes (lo hi : Byte) :
    unpackFlags (joinBytes lo hi) =
      { c := lo.getLsbD 7, z := lo.getLsbD 0, o := lo.getLsbD 6, n := lo.getLsbD 1 } := by
  rw [unpackFlags, Flags.mk.injEq]
  exact ⟨joinBytes_getLsbD lo hi 7, joinBytes_getLsbD lo hi 0, joinBytes_getLsbD lo hi 6, joinBytes_getLsbD lo hi 1⟩

/-- Unpacking undoes packing, whatever the high byte of the slot is. -/
theorem unpackFlags_packFlags (f : Flags) (hi : Byte) : unpackFlags (joinBytes (packFlags f) hi) = f := by
  rw [unpackFlags_joinBytes]
  obtain ⟨c, z, o, n⟩ := f
  revert c z o n
  decide

/-- PUSHF fills the slot at `sp` with the packed byte and a byte 0 (R238). -/
theorem pushf_effect (h : exec .pushf s = .next t) :
    t.read8 s.sp = packFlags s.flags ∧ t.read8 (s.sp + 1) = 0 ∧ StoreFrame (storedAt s.sp) s t ∧
      t.sp = s.sp + 2 ∧ t.pc = s.pc + 4 := by
  have hregs : RegsKeptBut [] s t := (exec_frame h).regs
  have hmem : MemKeptBut (storedAt s.sp) s t := exec_memKeptBut h
  obtain rfl := Host.Outcome.next.inj h
  have hslot : s.sp ≠ s.sp + 1 := by bv_omega
  refine ⟨?_, ?_, ⟨hregs, hmem, rfl, rfl, rfl, rfl, rfl⟩, rfl, rfl⟩
  · rw [State.read8_advance, State.read8_setSp, State.read8_storeFlags, if_neg hslot, if_pos rfl]
  · rw [State.read8_advance, State.read8_setSp, State.read8_storeFlags, if_pos rfl]

/-- POPF takes the flags from the popped word and writes nothing else (R239). -/
theorem popf_effect (h : exec .popf s = .next t) :
    t.flags = unpackFlags s.popped ∧ t.sp = s.sp - 2 ∧ t.pc = s.pc + 4 ∧ RegsKeptBut [] s t ∧ MemKeptBut [] s t ∧
      PortsQuiet s t := by
  obtain rfl := Host.Outcome.next.inj h
  exact ⟨rfl, rfl, rfl, fun _ _ => rfl, memKeptBut_of_mem_eq rfl, ⟨rfl, rfl, rfl, rfl⟩⟩

/-! ## The obligations -/

/-- Settles O26: the slot of a push is the one the next pop reads, and each taken call is a push and a jump. -/
theorem pushAndPopAreInverse : Obligations.PushAndPopAreInverse :=
  ⟨fun s v => ⟨holdsWord_write16 s s.sp v, memKeptBut_write16 s s.sp v, rfl, (wordAt_eq_read16 s (s.sp - 2)).symm, rfl,
      State.popped_push16 s v, BitVec.add_sub_cancel s.sp 2⟩,
    fun s target x _ hc => ⟨exec_call s target, exec_callR s x, whenCond_of_true hc _⟩, exec_ret⟩

/-- Settles O46: PUSH is one 16-bit write at `sp`, POP one register write of the word below it. -/
theorem pushStoresAndPopLoads : Obligations.PushStoresAndPopLoads := by
  intro s x
  refine ⟨⟨_, exec_push s x, holdsWord_write16 s s.sp (s.reg x), storeFrame_write16 s s.sp (s.reg x), rfl, rfl⟩,
    ⟨_, exec_pop s x, ?_, rfl, rfl, rfl, (exec_frame (exec_pop s x)).regs, memKeptBut_of_mem_eq rfl,
      ⟨rfl, rfl, rfl, rfl⟩⟩⟩
  rw [wordAt_eq_read16]
  exact State.reg_setReg_same s.dropSlot x s.popped

/-- Settles O47: each slot reads as its register, hence its two bytes are the register's. -/
theorem pushallStoresSixteenWords : Obligations.PushallStoresSixteenWords := by
  intro s
  obtain ⟨hslots, hframe, hsp, hpc⟩ := pushall_effect (exec_pushall s)
  exact ⟨_, exec_pushall s, fun i => hslots i ▸ holdsWord_read16 _ (slotOf s.sp i), hframe, hsp, hpc⟩

/-- Settles O48: each register is loaded from its slot. -/
theorem popallLoadsSixteenWords : Obligations.PopallLoadsSixteenWords := by
  intro s
  obtain ⟨hregs, hrest⟩ := popall_effect (exec_popall s)
  exact ⟨_, exec_popall s, fun i => (hregs i).trans (wordAt_eq_read16 s _).symm, hrest⟩

/-- Settles O49: POPALL uncovers the block PUSHALL filled, and the 32 bytes of it are still the registers. -/
theorem pushallThenPopallRestores : Obligations.PushallThenPopallRestores := by
  intro s t m u hpush hsp hblock hpop
  obtain ⟨hslots, -, htsp, -⟩ := pushall_effect hpush
  obtain ⟨hregs, -, husp, hpc, hflags, -⟩ := popall_effect hpop
  have hbase : m.sp - 32 = s.sp := by rw [hsp, htsp, BitVec.add_sub_cancel]
  refine ⟨fun i => ?_, husp.trans hbase, hflags, hpc⟩
  calc u.reg i = m.read16 (slotOf s.sp i) := hbase ▸ hregs i
    _ = t.read16 (slotOf s.sp i) := read16_slotOf_congr hblock i
    _ = s.reg i := hslots i

/-- Settles O50: the low byte is the packed one, by value, and the high byte is 0. -/
theorem pushfStoresThePackedFlags : Obligations.PushfStoresThePackedFlags := by
  intro s
  obtain ⟨hlow, hhigh, hrest⟩ := pushf_effect (exec_pushf s)
  exact ⟨_, exec_pushf s, by rw [hlow, packFlags_toNat], by rw [hhigh]; rfl, hrest⟩

/-- Settles O51: the flags of the popped word are bits of its low byte. -/
theorem popfTakesFourBits : Obligations.PopfTakesFourBits := by
  intro s
  obtain ⟨hpopped, hrest⟩ := popf_effect (exec_popf s)
  have hflags := hpopped.trans (unpackFlags_joinBytes _ (s.read8 (s.sp - 2 + 1)))
  exact ⟨_, exec_popf s, congrArg Flags.c hflags, congrArg Flags.o hflags, congrArg Flags.n hflags,
    congrArg Flags.z hflags, hrest⟩

/-- Settles O52: the slot still holds the packed flags, and `sp` comes back to where it was, also across the wrap. -/
theorem pushfThenPopfRestores : Obligations.PushfThenPopfRestores := by
  intro s t u g hpush hpop
  obtain ⟨hlow, -, -, htsp, -⟩ := pushf_effect hpush
  obtain ⟨hflags, husp, -⟩ := popf_effect hpop
  have hbase : (t.setFlags g).sp - 2 = s.sp := by rw [State.sp_setFlags, htsp, BitVec.add_sub_cancel]
  refine ⟨?_, husp.trans hbase⟩
  rw [hflags, State.popped, hbase, State.read16_eq, State.read8_setFlags, hlow, unpackFlags_packFlags]

end Sys2Proof.Machine

/-! # NOP and the peripheral instructions (47_peripheral.md)

Twelve forms do no more than make their port calls and advance (`exec_of_sendsOnly`); VBLNK, DRW and RND also take an
answer. Where an answer comes from and what is used up is said once for each of the three queues (`vblank_taken`,
`overlap_taken`, `random_taken`), in the state in which the call is on record already. -/

namespace Sys2Proof

/-- The forms that make port calls and take no answer (R256, R258, R259, R263 to R272). -/
def Form.sendsOnly : Form → Bool
  | .cls | .bgc | .spr | .flip | .snd0 | .snd1 | .snd2 | .snd3 | .snp | .sng | .pal | .palR => true
  | _ => false

end Sys2Proof

namespace Sys2Proof.Machine

variable {s t : State} {i : Instr}

/-! ## Forms that take no answer -/

/-- Such a form sends the calls its rule lists. -/
theorem exec_of_sendsOnly (h : i.form.sendsOnly = true) : exec i s = sendCalls (i.portCalls s) s := by
  cases i
  case snp x d => rw [exec_snp, ← wordAt_eq_read16]; rfl
  case pal a => exact loadPalette_eq (.abs a)
  case palR x => exact loadPalette_eq (.inReg x)
  case cls | bgc | spr | flip | snd0 | snd1 | snd2 | snd3 | sng => rfl
  all_goals exact absurd h Bool.false_ne_true

/-- Recorded calls and the advance: what is sent, and that the core changes in `pc` alone (R250). -/
theorem recordCalls_advance_effect (s : State) (calls : List PortCall) :
    SentOnly calls s (s.recordCalls calls).advance ∧ CoreKept s (s.recordCalls calls).advance ∧
      (s.recordCalls calls).advance.pc = s.pc + 4 :=
  ⟨⟨rfl, rfl⟩, ⟨fun _ _ => rfl, memKeptBut_of_mem_eq rfl, rfl, rfl, rfl, rfl⟩, rfl⟩

/-! ## Answers -/

/-- The answer of `Gpu.vblank()` and what is used up by it (R251). -/
theorem State.vblank_taken (s : State) :
    (∀ b rest, s.inputs.vblank = b :: rest →
      s.vblankAnswer = b ∧ s.takeVblank.inputs = { s.inputs with vblank := rest }) ∧
    (s.inputs.vblank = [] → s.vblankAnswer = Config.freeVblank s.inputs.draws ∧
      s.takeVblank.inputs = { s.inputs with draws := s.inputs.draws + 1 }) := by
  refine ⟨fun b rest hq => ?_, fun hq => ?_⟩ <;> simp [State.vblankAnswer, State.takeVblank, hq]

/-- The overlap answer of `Gpu.draw` and what is used up by it (R251). -/
theorem State.overlap_taken (s : State) :
    (∀ b rest, s.inputs.overlap = b :: rest →
      s.overlapAnswer = b ∧ s.takeOverlap.inputs = { s.inputs with overlap := rest }) ∧
    (s.inputs.overlap = [] → s.overlapAnswer = Config.freeOverlap s.inputs.draws ∧
      s.takeOverlap.inputs = { s.inputs with draws := s.inputs.draws + 1 }) := by
  refine ⟨fun b rest hq => ?_, fun hq => ?_⟩ <;> simp [State.overlapAnswer, State.takeOverlap, hq]

/-- The answer of `Rng.next_in_range(max)` and what is used up by it (R253). -/
theorem State.random_taken (s : State) (max : Word) :
    (∀ v rest, s.inputs.random = v :: rest →
      s.randomAnswer max = intoRange v max ∧ s.takeRandom.inputs = { s.inputs with random := rest }) ∧
    (s.inputs.random = [] → s.randomAnswer max = intoRange (Config.freeRandom s.inputs.draws) max ∧
      s.takeRandom.inputs = { s.inputs with draws := s.inputs.draws + 1 }) := by
  refine ⟨fun v rest hq => ?_, fun hq => ?_⟩ <;> simp [State.randomAnswer, State.takeRandom, hq]

/-- VBLNK transfers, on the answer true to the next instruction and on false to itself (R257). -/
theorem exec_vblnk_jump (hh : s.PortsHealthy 1) :
    exec .vblnk s = .next ((s.recordCalls [.gpuVblank]).takeVblank.jump
      (if s.vblankAnswer = true then s.pc + 4 else s.pc)) := by
  rw [exec_vblnk, execVblnk_healthy hh]
  split <;> simp [State.advance, State.jump]

/-- A form with no flag of its own in the table of R31 keeps all four. -/
theorem FlagsKeptBy.eq {f : Form} {old new : Flags} (h : FlagsKeptBy f old new) (hc : f.writesC = false)
    (ho : f.writesO = false) (hzn : f.writesZN = false) : new = old := by
  obtain ⟨kc, ko, kzn⟩ := h
  obtain ⟨kz, kn⟩ := kzn hzn
  cases new
  rw [Flags.mk.injEq]
  exact ⟨kc hc, kz, ko ho, kn⟩

/-! ## The obligations -/

/-- Settles O53: NOP is the bare advance. -/
theorem nopOnlyAdvances : Obligations.NopOnlyAdvances := fun s => ⟨_, exec_nop s, onlyPc_advance s, rfl⟩

/-- Settles O54: each sender is its port calls and the advance, and healthy calls are all made. -/
theorem sendersMakeTheirCallsAndAdvance : Obligations.SendersMakeTheirCallsAndAdvance := by
  intro s i hi hh
  have hs : i.form.sendsOnly = true := by
    rcases hi with rfl | ⟨_, rfl⟩ | ⟨_, _, rfl⟩ | ⟨_, _, rfl⟩ | rfl | ⟨_, rfl⟩ | ⟨_, rfl⟩ | ⟨_, rfl⟩ | ⟨_, _, rfl⟩ |
      ⟨_, _, rfl⟩ | ⟨_, rfl⟩ | ⟨_, rfl⟩ <;> rfl
  exact ⟨_, (exec_of_sendsOnly hs).trans (sendCalls_healthy hh), recordCalls_advance_effect s (i.portCalls s)⟩

/-- Settles O55: the two answers differ in the target alone, and the core is kept by the frame of VBLNK. -/
theorem vblnkRetriesUntilVerticalBlank : Obligations.VblnkRetriesUntilVerticalBlank := by
  intro s hh
  have hexec := exec_vblnk_jump hh
  obtain ⟨hcycles, hfault⟩ := exec_keeps hexec
  have hframe := exec_frame hexec
  refine ⟨_, hexec, ⟨hframe.regs, exec_memKeptBut hexec, hframe.sp rfl, hframe.flags.eq rfl rfl rfl, hfault, hcycles⟩,
    by simp, fun hyes => if_pos hyes, fun hno => if_neg (ne_true_of_eq_false hno), ?_⟩
  exact State.vblank_taken (s.recordCalls [.gpuVblank])

/-- Settles O56: both forms draw the sprite at the address their operand gives. -/
theorem drawPutsTheOverlapInCarry : Obligations.DrawPutsTheOverlapInCarry := by
  intro s x y z addr i sprite hi hh
  obtain ⟨a, rfl, hexec⟩ : ∃ a : Address, a.value s = sprite ∧ exec i s = drawSprite a x y s := by
    rcases hi with ⟨rfl, hsprite⟩ | ⟨rfl, rfl⟩
    · exact ⟨.abs addr, hsprite.symm, exec_drw s x y addr⟩
    · exact ⟨.atReg z, (wordAt_eq_read16 s (s.reg z)).symm, exec_drwR s z x y⟩
  obtain ⟨hlisted, hfree⟩ := State.overlap_taken (s.recordCalls [.gpuDraw (a.value s) (s.reg x) (s.reg y)])
  exact ⟨_, hexec.trans (drawSprite_healthy hh), by simp, by simp, hlisted, hfree, fun _ _ => by simp,
    memKeptBut_of_mem_eq (by simp), by simp, by simp, by simp, by simp⟩

/-- Settles O57: the answer is brought into the range, which leaves a value of the range as it is. -/
theorem randomStaysInItsRange : Obligations.RandomStaysInItsRange := by
  intro s x bound hh
  have hexec : exec (.rnd x bound) s = _ := execRnd_healthy hh
  obtain ⟨hcycles, hfault⟩ := exec_keeps hexec
  have hframe := exec_frame hexec
  obtain ⟨hlisted, hfree⟩ := State.random_taken (s.recordCalls [.rngNextInRange bound]) bound
  have hx := State.reg_setReg_same (s.recordCalls [.rngNextInRange bound]).takeRandom x (s.randomAnswer bound)
  have hrange := le_of_eq_of_le (congrArg BitVec.toNat hx) (s.randomAnswer_le bound)
  refine ⟨_, hexec, hrange, by simp, fun v rest hq => ?_, fun hq => ?_, hframe.regs, exec_memKeptBut hexec,
    hframe.sp rfl, hframe.flags.eq rfl rfl rfl, hfault, hcycles, hframe.pc rfl⟩
  · obtain ⟨hanswer, hinputs⟩ := hlisted v rest hq
    exact ⟨fun hv => hx.trans (hanswer.trans (intoRange_of_le hv)), hinputs⟩
  · obtain ⟨hanswer, hinputs⟩ := hfree hq
    exact ⟨hx.trans hanswer, hinputs⟩

/-- Settles O21: what goes on has made all of its calls, and a form without calls leaves the record as it was. -/
theorem portCallsAreThoseOfTheInstruction : Obligations.PortCallsAreThoseOfTheInstruction := by
  intro i s t h
  cases i
  case cls | bgc | spr | flip | snd0 | snd1 | snd2 | snd3 | snp | sng | pal | palR =>
    rw [exec_of_sendsOnly rfl] at h
    obtain ⟨-, rfl⟩ := sendCalls_next h
    rfl
  case drw => obtain ⟨-, rfl⟩ := drawSprite_next h; simp [Instr.portCalls, Address.value]
  case drwR => obtain ⟨-, rfl⟩ := drawSprite_next h; simp [Instr.portCalls, Address.value, wordAt_eq_read16]
  case rnd => obtain ⟨-, rfl⟩ := execRnd_next h; simp [Instr.portCalls]
  case vblnk => obtain ⟨-, rfl⟩ := execVblnk_next h; split <;> simp [Instr.portCalls]
  case divi | div | div3 | modi | mod | mod3 =>
    obtain ⟨-, -, rfl⟩ := aluDivide_next h
    exact (List.append_nil s.portLog).symm
  case jcc | callcc => obtain ⟨-, rfl⟩ | ⟨-, rfl⟩ := whenCond_next h <;> exact (List.append_nil s.portLog).symm
  case jme => obtain rfl := Host.Outcome.next.inj h; split <;> exact (List.append_nil s.portLog).symm
  case pushall | popall => obtain rfl := Host.Outcome.next.inj h; simp [Instr.portCalls]
  all_goals (obtain rfl := Host.Outcome.next.inj h; exact (List.append_nil s.portLog).symm)

end Sys2Proof.Machine

/-! # Faults, the step and reset (60_exceptions.md, 70_reset_and_hazards.md)

What can keep an instruction from going on is read off three shapes: a division (`exec_of_divisor`), a conditional
transfer (`exec_of_condition`) and port calls (`exec_of_portCalls`). An instruction of none of them goes on, so it either
completes or has a cause to fault (`exec_completes_or_faults`), and each cause gives its own fault (`exec_of_cause`). -/

namespace Sys2Proof.Machine

variable {s t : State} {i : Instr} {f : Fault}

/-! ## The three shapes that may fault -/

theorem div16_eq_none {a b : Word} {old : Flags} : div16 a b old = none ↔ b = 0 := by simp [div16]

theorem mod16_eq_none {a b : Word} {old : Flags} : mod16 a b old = none ↔ b = 0 := by simp [mod16]

theorem aluDivide_of_none {op : Word → Word → Flags → Option (Word × Flags)} (d : RegIdx) {x : RegIdx} {b : Source}
    (h : op (s.reg x) (b.value s) s.flags = none) : aluDivide op d x b s = .fault (.divisionByZero s.pc) := by
  rw [aluDivide, h]
  rfl

/-- An instruction with a divisor divides by it, and the division has a result unless the divisor is 0 (R292). -/
theorem exec_of_divisor {v : Word} (h : i.divisor s = some v) :
    ∃ op d x b, exec i s = aluDivide op d x b s ∧ b.value s = v ∧ ∀ a w old, op a w old = none ↔ w = 0 := by
  cases i
  case divi | div | div3 => exact ⟨div16, _, _, _, rfl, Option.some.inj h, fun _ _ _ => div16_eq_none⟩
  case modi | mod | mod3 => exact ⟨mod16, _, _, _, rfl, Option.some.inj h, fun _ _ _ => mod16_eq_none⟩
  all_goals cases h

theorem exec_of_divisor_zero (h : i.divisor s = some 0) : exec i s = .fault (.divisionByZero s.pc) := by
  obtain ⟨op, d, x, b, hexec, hvalue, hnone⟩ := exec_of_divisor h
  exact hexec.trans (aluDivide_of_none d ((hnone _ _ _).mpr hvalue))

theorem exec_completes_of_divisor {v : Word} (h : i.divisor s = some v) (hv : v ≠ 0) : ∃ t, exec i s = .next t := by
  obtain ⟨op, d, x, b, hexec, rfl, hnone⟩ := exec_of_divisor h
  obtain ⟨r, hr⟩ := Option.ne_none_iff_exists'.mp (mt (hnone (s.reg x) (b.value s) s.flags).mp hv)
  exact ⟨_, hexec.trans (aluDivide_of_some d x b hr)⟩

/-- An instruction with a condition is a conditional transfer (R132, R137). -/
theorem exec_of_condition {c : Cond} (h : i.condition = some c) : ∃ go, exec i s = whenCond c s go := by
  cases i
  case jcc | callcc => obtain rfl := Option.some.inj h; exact ⟨_, rfl⟩
  all_goals cases h

/-- Code 15 has no value in any state of the flags, so the transfer faults (R294, D3). -/
theorem exec_of_condition_reserved (h : i.condition = some .reserved) :
    exec i s = .fault (.reservedCondition s.pc) := by
  obtain ⟨go, hexec⟩ := exec_of_condition (s := s) h
  rw [hexec, whenCond, (evalCond_eq_none s.flags).mpr rfl]
  rfl

theorem exec_completes_of_condition {c : Cond} (h : i.condition = some c) (hc : c ≠ .reserved) :
    ∃ t, exec i s = .next t := by
  obtain ⟨go, hexec⟩ := exec_of_condition (s := s) h
  cases hb : evalCond c s.flags with
  | none => exact absurd ((evalCond_eq_none s.flags).mp hb) hc
  | some b =>
    cases b with
    | true => exact ⟨_, hexec.trans (whenCond_of_true hb go)⟩
    | false => exact ⟨_, hexec.trans (whenCond_of_false hb go)⟩

/-- An instruction with port calls makes them, and once all are made nothing keeps it from going on (R254). -/
theorem exec_of_portCalls (h : i.portCalls s ≠ []) :
    ∃ after : State → State, exec i s = (callPorts (i.portCalls s) s).andThen fun t => .next (after t) := by
  cases i
  case cls | bgc | spr | flip | snd0 | snd1 | snd2 | snd3 | snp | sng | pal | palR =>
    exact ⟨State.advance, exec_of_sendsOnly rfl⟩
  case drwR z x y =>
    rw [Instr.portCalls, wordAt_eq_read16]
    exact ⟨_, rfl⟩
  case drw | rnd | vblnk => exact ⟨_, rfl⟩
  all_goals exact absurd rfl h

/-- The first failing call ends the instruction with its error and the calls before it (R293). -/
theorem exec_of_failing_call {k : Nat} {e : PeripheralError} (hk : k < (i.portCalls s).length)
    (hfail : s.PortFailsAt k e) : exec i s = .fault (.peripheralFailure s.pc e ((i.portCalls s).take k)) := by
  obtain ⟨hhealthy, herror⟩ := hfail
  obtain ⟨after, hexec⟩ := exec_of_portCalls (List.ne_nil_of_length_pos (Nat.zero_lt_of_lt hk))
  rw [hexec, callPorts_failing hk hhealthy herror, Result.andThen_fault]

theorem exec_completes_of_portCalls (h : i.portCalls s ≠ []) (hh : s.PortsHealthy (i.portCalls s).length) :
    ∃ t, exec i s = .next t := by
  obtain ⟨after, hexec⟩ := exec_of_portCalls h
  exact ⟨_, by rw [hexec, callPorts_healthy hh, Result.andThen_next]⟩

/-- An instruction of none of the three shapes has nothing to fail on. -/
theorem exec_completes_of_no_shape (hd : i.divisor s = none) (hc : i.condition = none) (hp : i.portCalls s = []) :
    ∃ t, exec i s = .next t := by
  cases i
  case divi | div | div3 | modi | mod | mod3 => cases hd
  case jcc | callcc => cases hc
  case pal | palR => simp [Instr.portCalls, paletteWrites] at hp
  case cls | vblnk | bgc | spr | drw | drwR | rnd | flip | snd0 | snd1 | snd2 | snd3 | snp | sng => cases hp
  all_goals exact ⟨_, rfl⟩

/-! ## Completion and the causes of faults -/

/-- Without any of the three causes an instruction goes on (R290). -/
theorem exec_completes (hd : i.divisor s ≠ some 0) (hc : i.condition ≠ some .reserved)
    (hh : s.PortsHealthy (i.portCalls s).length) : ∃ t, exec i s = .next t := by
  cases hdiv : i.divisor s with
  | some v => exact exec_completes_of_divisor hdiv fun hv => hd (hdiv.trans (congrArg some hv))
  | none =>
    cases hcond : i.condition with
    | some c => exact exec_completes_of_condition hcond fun hres => hc (hcond.trans (congrArg some hres))
    | none =>
      by_cases hp : i.portCalls s = []
      · exact exec_completes_of_no_shape hdiv hcond hp
      · exact exec_completes_of_portCalls hp hh

/-- A cause the rules name for an instruction to fault in a state, with what the fault records (R292, R293, R294). -/
def FaultCause (i : Instr) (s : State) (f : Fault) : Prop :=
  (i.divisor s = some 0 ∧ f = .divisionByZero s.pc) ∨
    (i.condition = some .reserved ∧ f = .reservedCondition s.pc) ∨
    ∃ k e, k < (i.portCalls s).length ∧ s.PortFailsAt k e ∧
      f = .peripheralFailure s.pc e ((i.portCalls s).take k)

theorem exec_of_cause (h : FaultCause i s f) : exec i s = .fault f := by
  obtain ⟨hd, rfl⟩ | ⟨hc, rfl⟩ | ⟨k, e, hk, hfail, rfl⟩ := h
  · exact exec_of_divisor_zero hd
  · exact exec_of_condition_reserved hc
  · exact exec_of_failing_call hk hfail

/-- Either the next calls are healthy, or there is a first one that fails. -/
theorem State.healthy_or_failsAt (s : State) (calls : List PortCall) :
    s.PortsHealthy calls.length ∨ ∃ k e, k < calls.length ∧ s.PortFailsAt k e := by
  cases h : callPorts calls s with
  | next t => exact .inl (callPorts_next h).1
  | fault f =>
    obtain ⟨k, e, hk, hhealthy, herror, -⟩ := callPorts_fault h
    exact .inr ⟨k, e, hk, hhealthy, herror⟩
  | refused r => exact absurd h callPorts_ne_refused

theorem exec_completes_or_faults (i : Instr) (s : State) :
    (∃ t, exec i s = .next t) ∨ ∃ f, FaultCause i s f := by
  by_cases hd : i.divisor s = some 0
  · exact .inr ⟨_, .inl ⟨hd, rfl⟩⟩
  by_cases hc : i.condition = some .reserved
  · exact .inr ⟨_, .inr (.inl ⟨hc, rfl⟩)⟩
  obtain hh | ⟨k, e, hk, hfail⟩ := s.healthy_or_failsAt (i.portCalls s)
  · exact .inl (exec_completes hd hc hh)
  · exact .inr ⟨_, .inr (.inr ⟨k, e, hk, hfail, rfl⟩)⟩

/-- An instruction faults exactly by its causes. -/
theorem exec_eq_fault_iff : exec i s = .fault f ↔ FaultCause i s f := by
  refine ⟨fun h => ?_, exec_of_cause⟩
  obtain ⟨t, ht⟩ | ⟨g, hg⟩ := exec_completes_or_faults i s
  · cases h.symm.trans ht
  · obtain rfl := Host.Outcome.fault.inj (h.symm.trans (exec_of_cause hg))
    exact hg

theorem exec_ne_refused (i : Instr) (s : State) (r : Refusal) : exec i s ≠ .refused r := by
  intro h
  obtain ⟨t, ht⟩ | ⟨g, hg⟩ := exec_completes_or_faults i s
  · cases h.symm.trans ht
  · cases h.symm.trans (exec_of_cause hg)

/-- No instruction raises the fault of dispatch (R291). -/
theorem exec_ne_invalidOpcode (pc : Word) (op : Byte) : exec i s ≠ .fault (.invalidOpcode pc op) := by
  intro h
  obtain ⟨-, hf⟩ | ⟨-, hf⟩ | ⟨_, _, -, -, hf⟩ := exec_eq_fault_iff.mp h <;> cases hf

/-! ## What the step makes of it -/

theorem step_of_exec_next (hf : s.fault = none) (hd : decodeFields s.fetch = .ok i) (h : exec i s = .next t) :
    step s = .next { t with cycles := s.cycles + 1 } := by
  rw [step_of_decoded hf hd, h, ← (exec_keeps h).1]
  rfl

theorem step_of_exec_fault (hf : s.fault = none) (hd : decodeFields s.fetch = .ok i) (h : exec i s = .fault f) :
    step s = .fault f := by
  rw [step_of_decoded hf hd, h, Result.andThen_fault]

theorem step_of_undecoded {e : DecodeError} (hf : s.fault = none) (hd : decodeFields s.fetch = .error e) :
    step s = .fault (.invalidOpcode s.pc s.fetch.op) := by
  unfold step
  rw [hf, hd]
  rfl

/-- Only the opcode byte is looked up, so only a byte without a form gives this fault (R291). -/
theorem step_ne_invalidOpcode {form : Form} (h : params.opcodeMap form = s.read8 s.pc) (pc : Word) (op : Byte) :
    step s ≠ .fault (.invalidOpcode pc op) := by
  intro hstep
  have hform : formOf s.fetch.op = some form := (congrArg formOf h.symm).trans (formOf_opcode form)
  obtain ⟨-, ⟨e, he, -⟩ | ⟨i, -, hexec⟩⟩ := step_fault hstep
  · cases he.symm.trans (decodeFields_of_formOf hform)
  · exact exec_ne_invalidOpcode pc op hexec

theorem decodeFields_of_no_form {w : Fields} (h : ∀ form, params.opcodeMap form ≠ w.op) :
    decodeFields w = .error (.invalidOpcode w.op) := by
  cases hform : formOf w.op with
  | none => rw [decodeFields, hform]
  | some form => exact absurd (opcode_of_formOf hform) (h form)

/-- After a faulting step the host sees the core as it was, and on record the calls that were made (R293, R295). -/
theorem requestStep_effect_of_fault (h : step s = .fault f) :
    RegsKeptBut [] s s.requestStep ∧ MemKeptBut [] s s.requestStep ∧ s.requestStep.flags = s.flags ∧
      s.requestStep.sp = s.sp ∧ s.requestStep.pc = s.pc ∧ s.requestStep.portLog = s.portLog ++ f.reachedCalls := by
  rw [requestStep_of_fault h]
  exact ⟨fun _ _ => rfl, memKeptBut_of_mem_eq rfl, rfl, rfl, rfl, rfl⟩

/-! ## The obligations -/

/-- Settles O22, by the three shapes that may fault. -/
theorem everyInstructionCompletes : Obligations.EveryInstructionCompletes := fun _ _ => exec_completes

/-- Settles O23: an instruction that does not complete has a cause, and each cause gives its fault. -/
theorem faultsHaveExactlyTheirCauses : Obligations.FaultsHaveExactlyTheirCauses :=
  fun i s => ⟨fun _ => exec_eq_fault_iff, exec_ne_refused i s⟩

/-- Settles O58: the calls are the first thing a peripheral instruction does, and the fault is the step's. -/
theorem peripheralErrorEndsTheStep : Obligations.PeripheralErrorEndsTheStep := by
  intro s i k e hk hfail
  have hexec := exec_of_failing_call hk hfail
  exact ⟨hexec, fun hf hd => requestStep_effect_of_fault (step_of_exec_fault hf hd hexec)⟩

/-- Settles O33: the division has no result, and the fault is the step's. -/
theorem divisionByZeroFaultsBeforeAnyWrite : Obligations.DivisionByZeroFaultsBeforeAnyWrite := by
  intro s i h
  have hexec := exec_of_divisor_zero h
  refine ⟨hexec, fun hf hd => ?_⟩
  obtain ⟨hregs, -, hflags, -⟩ := requestStep_effect_of_fault (step_of_exec_fault hf hd hexec)
  exact ⟨hregs, hflags⟩

/-- Settles O8: the opcode byte alone decides what the bytes decode to, and no instruction raises this fault. -/
theorem invalidOpcodeFaultsAtDispatch : Obligations.InvalidOpcodeFaultsAtDispatch := by
  refine fun s hf => ⟨fun hno => ?_, fun ⟨form, hform⟩ => step_ne_invalidOpcode hform s.pc⟩
  have hstep := step_of_undecoded hf (decodeFields_of_no_form hno)
  obtain ⟨hregs, hmem, hflags, hsp, hpc, -⟩ := requestStep_effect_of_fault hstep
  exact ⟨hstep, hregs, hmem, hflags, hsp, hpc⟩

/-- Settles O42: both forms are conditional transfers on code 15. -/
theorem reservedConditionFaults : Obligations.ReservedConditionFaults :=
  fun _ _ => ⟨rfl, exec_of_condition_reserved rfl, exec_of_condition_reserved rfl⟩

/-- Settles O6: the four bytes are the fetched ones, and the instruction leaves the counter to the step. -/
theorem stepRunsTheDecodedInstruction : Obligations.StepRunsTheDecodedInstruction :=
  fun _ _ hf hd => ⟨fun _ => step_of_exec_next hf hd, fun _ => step_of_exec_fault hf hd⟩

/-- Settles O9: reset forgets the state before it. -/
theorem resetGivesEveryFieldItsValue : Obligations.ResetGivesEveryFieldItsValue :=
  fun _ => ⟨State.reg_reset, rfl, rfl, rfl, rfl, rfl, rfl, rfl, rfl, State.read8_reset⟩

end Sys2Proof.Machine
